-- ==== Sys2Proof/Word.lean ====
section
/-! DEFINITION. The word of the machine, its register numbers and its memory cell. -/

namespace Sys2Proof

/-- A 16-bit word: the width of every register, memory word and instruction (R6). `+` and `-` on words are the
spec's `+16` and `-16`, `&&&`, `|||` and `~~~` its bitwise operations (R11, R181). -/
abbrev Word := BitVec 16

/-- The number of a general register, R0 to R7 (R22). -/
abbrev Reg := Fin 8

/-- One word of memory at a word address. The word is the addressable unit (R62, R71; log entry 3). -/
abbrev WordCell := Nat × Word

end Sys2Proof
end

