-- ==== Sys2Proof/Syntax.lean ====
section
/-! DEFINITION. The instructions: one constructor per row of spec/opcode_table.json, with its decoded operands, and
the names the decoder works with (opcode families, forms, formats, fields, operand roles). -/

namespace Sys2Proof

/-- The instruction forms of R108. Registers are register numbers, immediates the unextended fields of R95.
`d`, `s`, `t` have the roles of R96; the operand order is the assembler's (R104), so a store names its data
register `s` first. -/
inductive Instr where
  | b    (imm : BitVec 12)
  | beq  (imm : BitVec 11)
  | bne  (imm : BitVec 11)
  | bgt  (imm : BitVec 11)
  | blt  (imm : BitVec 11)
  | ld   (d s : Reg)
  | ldx  (d s t : Reg)
  | ldd  (d s : Reg) (imm : BitVec 4)
  | ldi  (d : Reg) (imm : BitVec 7)
  | st   (s d : Reg)
  | stx  (s d t : Reg)
  | std  (s d : Reg) (imm : BitVec 4)
  /-- The reserved store mode `0100 11xx xxxx xxxx` (R100, R157). It keeps its ten low bits, because the DecodeError
  it raises reports the whole word. -/
  | reserved (low : BitVec 10)
  | mov  (d s : Reg)
  | movi (d : Reg) (imm : BitVec 8)
  | and  (d s : Reg)
  | andi (d : Reg) (imm : BitVec 7)
  | and3 (d s t : Reg)
  | and3i (d s : Reg) (imm : BitVec 4)
  | or   (d s : Reg)
  | ori  (d : Reg) (imm : BitVec 7)
  | or3  (d s t : Reg)
  | or3i (d s : Reg) (imm : BitVec 4)
  | not  (d : Reg)
  | add  (d s : Reg)
  | addi (d : Reg) (imm : BitVec 7)
  | add3 (d s t : Reg)
  | add3i (d s : Reg) (imm : BitVec 4)
  | sub  (d s : Reg)
  | subi (d : Reg) (imm : BitVec 7)
  | sub3 (d s t : Reg)
  | sub3i (d s : Reg) (imm : BitVec 4)
  | cmp  (d s : Reg)
  | cmpi (d : Reg) (imm : BitVec 8)
  | push (s : Reg)
  | pop  (d : Reg)
  | jmp  (d : Reg) (imm : BitVec 9)
  | hlt
deriving DecidableEq, Repr

/-- The sixteen handler families of R91, one per opcode value. -/
inductive Opcode where
  | branch | branchZero | branchSign | load | store | move | and | or
  | not | add | sub | compare | push | pop | jump | halt
deriving DecidableEq, Repr

/-- The form a word selects (R98, R99); `reserved` is the reserved pattern of R100. -/
inductive Form where
  | b | beq | bne | bgt | blt
  | ld | ldx | ldd | ldi | st | stx | std | reserved
  | mov | movi
  | and | andi | and3 | and3i | or | ori | or3 | or3i | not
  | add | addi | add3 | add3i | sub | subi | sub3 | sub3i | cmp | cmpi
  | push | pop | jmp | hlt
deriving DecidableEq, Repr

/-- The field layouts of R92. -/
inductive Format where
  | fb | fc | fm | fa | fe | fr | fj | fn
deriving DecidableEq, Repr

/-- The fields the decoder slices from every word, whichever form is selected (R94). -/
structure Fields where
  op    : BitVec 4
  m11   : Bool
  m0    : Bool
  mode2 : BitVec 2
  f10_8 : Reg
  f7_5  : Reg
  f4_2  : Reg
  f9_7  : Reg
  f6_4  : Reg
  f3_1  : Reg
  f11_9 : Reg
  imm4m : BitVec 4
  imm7m : BitVec 7
  imm7a : BitVec 7
  imm4a : BitVec 4
  imm8  : BitVec 8
  imm9  : BitVec 9
  imm11 : BitVec 11
  imm12 : BitVec 12
deriving DecidableEq, Repr

/-- The decoder's output record (R98). A register role the form does not have is `none`. -/
structure DecodedWord where
  op    : BitVec 4
  form  : Form
  d     : Option Reg
  s     : Option Reg
  t     : Option Reg
  imm16 : Word
  valid : Bool
deriving DecidableEq, Repr

/-- One row of the match and mask table (R108), with the bits the form ignores (R101). -/
structure FormRow where
  form     : Form
  mnemonic : String
  mask     : Word
  pattern  : Word
  ignored  : Word
deriving DecidableEq, Repr

/-- What the decoder drives on the register file's three read ports and its write port (R24, R97): an index on every
port, and the write port's enable. -/
structure PortIndices where
  ra          : Reg
  rb          : Reg
  rc          : Reg
  write       : Reg
  writeEnable : Bool
deriving DecidableEq, Repr

end Sys2Proof
end

