-- ==== Sys2Proof/Config.lean ====
section
/-! DEFINITION. What an implementation or the host fixes before a run: the fixed parameters of R6 and R7, the open
parameters of R8, and the values the model's reset state gives the open ones (log entry 2). -/

namespace Sys2Proof.Config

/-- NUM_GPR (R7). -/
def numGpr : Nat := 8

/-- MEM_WORDS, the number of words of the address space (R7, R62). -/
def memWords : Nat := 65536

/-- STACK_BASE, the top of the stack and the reset value of SP (R7). -/
def stackBase : Word := 0xFFFF#16

/-- FLAG_MODE: how Negative is derived (R8, R33). -/
inductive FlagMode where
  | signed
  | sourceLiteral
deriving DecidableEq, Repr

/-- EA_OVERFLOW: what an effective-address sum above 0xFFFF does (R8, R64). -/
inductive EaOverflow where
  | wrap
  | fault
deriving DecidableEq, Repr

/-- The open parameters of R8, which the host fixes before reset (R232) and no step changes. -/
structure Params where
  flagMode    : FlagMode
  eaOverflow  : EaOverflow
  stackFloor  : Word
  romCapacity : Nat
  stepBudget  : Nat
deriving DecidableEq, Repr

/-- The parameters of the model's one reset state. FLAG_MODE and EA_OVERFLOW are the defaults of R8. The other three
have no default in the spec: DESIGN CHOICE, unsafe for a claim that rests on them (log entry 2). -/
def Params.atReset : Params where
  flagMode    := .signed
  eaOverflow  := .wrap
  stackFloor  := 0xFF00#16
  romCapacity := 0x100
  stepBudget  := 1000000

/-- The ports of the register file: three read ports and one write port (R24). -/
inductive RegPort where
  | ra
  | rb
  | rc
  | write
deriving DecidableEq, Repr

/-- The index driven on a register port where R97 names none for the word's form: a free value, of which only that it
is some register index is known (log entry 14). -/
opaque unnamedPortIndex : RegPort → Word → Reg

end Sys2Proof.Config
end

