-- ==== Sys2Proof/WellFormed.lean ====
section
/-! DEFINITION. What is checked of data from outside: that an instruction is not the reserved encoding, and that the
host's parameters meet the bounds of R8. The widths of operands need no check: they stand in the types of `Instr`
(a 3-bit field names exactly the registers R0 to R7, R22). Raw operands of any size meet their check in
Machine/Assembler.lean. -/

namespace Sys2Proof

/-- The decoder's `valid` output (R98): false only for the reserved encoding of R100. -/
def Instr.valid : Instr → Bool
  | .reserved _ => false
  | _ => true

/-- A well-formed instruction is one the assembler can emit: any form but the reserved encoding (R100, R105). -/
abbrev Instr.WellFormed (i : Instr) : Prop := i.valid = true

/-- STACK_FLOOR lies below STACK_BASE (R8). -/
abbrev Config.Params.FloorBelowBase (p : Config.Params) : Prop := p.stackFloor < Config.stackBase

/-- ROM_CAPACITY is at least 1 (R8). -/
abbrev Config.Params.CapacityPositive (p : Config.Params) : Prop := 1 ≤ p.romCapacity

/-- ROM_CAPACITY is at most STACK_FLOOR (R8). -/
abbrev Config.Params.CapacityBelowFloor (p : Config.Params) : Prop := p.romCapacity ≤ p.stackFloor.toNat

/-- The constraints R8 puts on the open parameters. -/
abbrev Config.Params.WellFormed (p : Config.Params) : Prop :=
  p.FloorBelowBase ∧ p.CapacityPositive ∧ p.CapacityBelowFloor

end Sys2Proof
end

