-- ==== Sys2Proof/Decode.lean ====
section
/-! DEFINITION. The decoder (R90 to R103): bit slices, fields, dispatch by opcode and selector, operands; then the
encoder (R107), the match and mask table (R108), the decoder's output record (R98) and the register ports as it drives
them (R97). -/

namespace Sys2Proof

/-- The field of `n` bits of a word whose lowest bit is bit `lo`: `w[lo+n-1 : lo]` (R9). -/
def slice (lo n : Nat) (w : Word) : BitVec n := w.extractLsb' lo n

/-- Bit `i` of a word (R9). -/
def bit (i : Nat) (w : Word) : Bool := w.getLsbD i

/-- The 3-bit register field whose lowest bit is bit `lo`; the field value is the register number (R22). -/
def regField (lo : Nat) (w : Word) : Reg := (slice lo 3 w).toFin

/-- The field slices of R94. -/
def Fields.ofWord (w : Word) : Fields where
  op    := slice 12 4 w
  m11   := bit 11 w
  m0    := bit 0 w
  mode2 := slice 10 2 w
  f10_8 := regField 8 w
  f7_5  := regField 5 w
  f4_2  := regField 2 w
  f9_7  := regField 7 w
  f6_4  := regField 4 w
  f3_1  := regField 1 w
  f11_9 := regField 9 w
  imm4m := slice 0 4 w
  imm7m := slice 0 7 w
  imm7a := slice 1 7 w
  imm4a := slice 1 4 w
  imm8  := slice 0 8 w
  imm9  := slice 0 9 w
  imm11 := slice 0 11 w
  imm12 := slice 0 12 w

/-- The sixteen opcode values of R91, by the bits of the opcode field from the highest down. -/
def opcodeOf (op : BitVec 4) : Opcode :=
  match op.getLsbD 3, op.getLsbD 2, op.getLsbD 1, op.getLsbD 0 with
  | false, false, false, false => .branch
  | false, false, false, true  => .branchZero
  | false, false, true,  false => .branchSign
  | false, false, true,  true  => .load
  | false, true,  false, false => .store
  | false, true,  false, true  => .move
  | false, true,  true,  false => .and
  | false, true,  true,  true  => .or
  | true,  false, false, false => .not
  | true,  false, false, true  => .add
  | true,  false, true,  false => .sub
  | true,  false, true,  true  => .compare
  | true,  true,  false, false => .push
  | true,  true,  false, true  => .pop
  | true,  true,  true,  false => .jump
  | true,  true,  true,  true  => .halt

/-- A choice by the 1-bit selector `ext` (R99). -/
def byExt (ext : Bool) (form0 form1 : Form) : Form := if ext then form1 else form0

/-- A choice by a 2-bit selector, its higher bit first (R99). -/
def byMode (hi lo : Bool) (form00 form01 form10 form11 : Form) : Form :=
  match hi, lo with
  | false, false => form00
  | false, true  => form01
  | true,  false => form10
  | true,  true  => form11

/-- The dispatcher: a 16-way choice by opcode (R98), then the selector bits of R99. Opcodes 3 and 4 take the mode
w[11:10]; opcodes 6, 7, 9 and A take the mode made of w[11] and w[0] (C4). -/
def Form.ofFields (f : Fields) : Form :=
  match opcodeOf f.op with
  | .branch     => .b
  | .branchZero => byExt f.m11 .beq .bne
  | .branchSign => byExt f.m11 .bgt .blt
  | .load       => byMode (f.mode2.getLsbD 1) (f.mode2.getLsbD 0) .ld .ldx .ldd .ldi
  | .store      => byMode (f.mode2.getLsbD 1) (f.mode2.getLsbD 0) .st .stx .std .reserved
  | .move       => byExt f.m11 .mov .movi
  | .and        => byMode f.m11 f.m0 .and .andi .and3 .and3i
  | .or         => byMode f.m11 f.m0 .or .ori .or3 .or3i
  | .not        => .not
  | .add        => byMode f.m11 f.m0 .add .addi .add3 .add3i
  | .sub        => byMode f.m11 f.m0 .sub .subi .sub3 .sub3i
  | .compare    => byExt f.m11 .cmp .cmpi
  | .push       => .push
  | .pop        => .pop
  | .jump       => .jmp
  | .halt       => .hlt

/-- The instruction of a form, its operands taken from the fields by the roles of R96. -/
def Form.build (form : Form) (f : Fields) : Instr :=
  match form with
  | .b     => .b f.imm12
  | .beq   => .beq f.imm11
  | .bne   => .bne f.imm11
  | .bgt   => .bgt f.imm11
  | .blt   => .blt f.imm11
  | .ld    => .ld f.f9_7 f.f6_4
  | .ldx   => .ldx f.f9_7 f.f6_4 f.f3_1
  | .ldd   => .ldd f.f9_7 f.f6_4 f.imm4m
  | .ldi   => .ldi f.f9_7 f.imm7m
  | .st    => .st f.f9_7 f.f6_4
  | .stx   => .stx f.f9_7 f.f6_4 f.f3_1
  | .std   => .std f.f9_7 f.f6_4 f.imm4m
  | .reserved => .reserved (f.imm11.setWidth 10)
  | .mov   => .mov f.f10_8 f.f7_5
  | .movi  => .movi f.f10_8 f.imm8
  | .and   => .and f.f10_8 f.f7_5
  | .andi  => .andi f.f10_8 f.imm7a
  | .and3  => .and3 f.f10_8 f.f7_5 f.f4_2
  | .and3i => .and3i f.f10_8 f.f7_5 f.imm4a
  | .or    => .or f.f10_8 f.f7_5
  | .ori   => .ori f.f10_8 f.imm7a
  | .or3   => .or3 f.f10_8 f.f7_5 f.f4_2
  | .or3i  => .or3i f.f10_8 f.f7_5 f.imm4a
  | .not   => .not f.f10_8
  | .add   => .add f.f10_8 f.f7_5
  | .addi  => .addi f.f10_8 f.imm7a
  | .add3  => .add3 f.f10_8 f.f7_5 f.f4_2
  | .add3i => .add3i f.f10_8 f.f7_5 f.imm4a
  | .sub   => .sub f.f10_8 f.f7_5
  | .subi  => .subi f.f10_8 f.imm7a
  | .sub3  => .sub3 f.f10_8 f.f7_5 f.f4_2
  | .sub3i => .sub3i f.f10_8 f.f7_5 f.imm4a
  | .cmp   => .cmp f.f10_8 f.f7_5
  | .cmpi  => .cmpi f.f10_8 f.imm8
  | .push  => .push f.f10_8
  | .pop   => .pop f.f10_8
  | .jmp   => .jmp f.f11_9 f.imm9
  | .hlt   => .hlt

/-- The form of a word (R98, R108). -/
def formOf (w : Word) : Form := Form.ofFields (Fields.ofWord w)

/-- The decoder: total on every word, since every opcode is assigned (R103); the one reserved pattern decodes to the
constructor that raises DecodeError (R100). -/
def decodeWord (w : Word) : Instr := (formOf w).build (Fields.ofWord w)

/-- Why the decoder answers no instruction. -/
inductive DecodeReject where
  /-- There is no word to decode. Raised by `decode` on the empty list only; safe. -/
  | noWord
deriving DecidableEq, Repr

/-- The decoder on a stream of words: the instruction of the first word and the words after it. Every instruction is
one word long (R90). -/
def decode : List Word → Except DecodeReject (Instr × List Word)
  | [] => .error .noWord
  | w :: rest => .ok (decodeWord w, rest)

/-! The encoder. -/

/-- A field value placed with its lowest bit at bit `lo` of a word that is 0 elsewhere. -/
def field {n : Nat} (lo : Nat) (v : BitVec n) : Word := v.setWidth 16 <<< lo

/-- A register number placed with its lowest bit at bit `lo`. -/
def putReg (lo : Nat) (r : Reg) : Word := field lo (BitVec.ofFin r : BitVec 3)

/-- The word of an instruction (R108), its ignored bits 0, as the assembler writes them (R101). The reserved encoding
keeps its low bits. -/
def encode : Instr → Word
  | .b imm      => 0x0000#16 ||| field 0 imm
  | .beq imm    => 0x1000#16 ||| field 0 imm
  | .bne imm    => 0x1800#16 ||| field 0 imm
  | .bgt imm    => 0x2000#16 ||| field 0 imm
  | .blt imm    => 0x2800#16 ||| field 0 imm
  | .ld d s     => 0x3000#16 ||| putReg 7 d ||| putReg 4 s
  | .ldx d s t  => 0x3400#16 ||| putReg 7 d ||| putReg 4 s ||| putReg 1 t
  | .ldd d s imm => 0x3800#16 ||| putReg 7 d ||| putReg 4 s ||| field 0 imm
  | .ldi d imm  => 0x3C00#16 ||| putReg 7 d ||| field 0 imm
  | .st s d     => 0x4000#16 ||| putReg 7 s ||| putReg 4 d
  | .stx s d t  => 0x4400#16 ||| putReg 7 s ||| putReg 4 d ||| putReg 1 t
  | .std s d imm => 0x4800#16 ||| putReg 7 s ||| putReg 4 d ||| field 0 imm
  | .reserved low => 0x4C00#16 ||| field 0 low
  | .mov d s    => 0x5000#16 ||| putReg 8 d ||| putReg 5 s
  | .movi d imm => 0x5800#16 ||| putReg 8 d ||| field 0 imm
  | .and d s    => 0x6000#16 ||| putReg 8 d ||| putReg 5 s
  | .andi d imm => 0x6001#16 ||| putReg 8 d ||| field 1 imm
  | .and3 d s t => 0x6800#16 ||| putReg 8 d ||| putReg 5 s ||| putReg 2 t
  | .and3i d s imm => 0x6801#16 ||| putReg 8 d ||| putReg 5 s ||| field 1 imm
  | .or d s    => 0x7000#16 ||| putReg 8 d ||| putReg 5 s
  | .ori d imm => 0x7001#16 ||| putReg 8 d ||| field 1 imm
  | .or3 d s t => 0x7800#16 ||| putReg 8 d ||| putReg 5 s ||| putReg 2 t
  | .or3i d s imm => 0x7801#16 ||| putReg 8 d ||| putReg 5 s ||| field 1 imm
  | .not d      => 0x8000#16 ||| putReg 8 d
  | .add d s    => 0x9000#16 ||| putReg 8 d ||| putReg 5 s
  | .addi d imm => 0x9001#16 ||| putReg 8 d ||| field 1 imm
  | .add3 d s t => 0x9800#16 ||| putReg 8 d ||| putReg 5 s ||| putReg 2 t
  | .add3i d s imm => 0x9801#16 ||| putReg 8 d ||| putReg 5 s ||| field 1 imm
  | .sub d s    => 0xA000#16 ||| putReg 8 d ||| putReg 5 s
  | .subi d imm => 0xA001#16 ||| putReg 8 d ||| field 1 imm
  | .sub3 d s t => 0xA800#16 ||| putReg 8 d ||| putReg 5 s ||| putReg 2 t
  | .sub3i d s imm => 0xA801#16 ||| putReg 8 d ||| putReg 5 s ||| field 1 imm
  | .cmp d s    => 0xB000#16 ||| putReg 8 d ||| putReg 5 s
  | .cmpi d imm => 0xB800#16 ||| putReg 8 d ||| field 0 imm
  | .push s     => 0xC000#16 ||| putReg 8 s
  | .pop d      => 0xD000#16 ||| putReg 8 d
  | .jmp d imm  => 0xE000#16 ||| putReg 9 d ||| field 0 imm
  | .hlt        => 0xF000#16

/-! The match and mask table (R108). -/

/-- The rows of R108 and of spec/opcode_table.json, in the table's order: form, mnemonic, mask, match, and the bits
its encoding marks x (R101). -/
def formTable : List FormRow :=
  [
   ⟨.b, "B", 0xF000#16, 0x0000#16, 0x0000#16⟩,
   ⟨.beq, "BEQ", 0xF800#16, 0x1000#16, 0x0000#16⟩,
   ⟨.bne, "BNE", 0xF800#16, 0x1800#16, 0x0000#16⟩,
   ⟨.bgt, "BGT", 0xF800#16, 0x2000#16, 0x0000#16⟩,
   ⟨.blt, "BLT", 0xF800#16, 0x2800#16, 0x0000#16⟩,
   ⟨.ld, "LD", 0xFC00#16, 0x3000#16, 0x000F#16⟩,
   ⟨.ldx, "LDX", 0xFC00#16, 0x3400#16, 0x0001#16⟩,
   ⟨.ldd, "LDD", 0xFC00#16, 0x3800#16, 0x0000#16⟩,
   ⟨.ldi, "LDI", 0xFC00#16, 0x3C00#16, 0x0000#16⟩,
   ⟨.st, "ST", 0xFC00#16, 0x4000#16, 0x000F#16⟩,
   ⟨.stx, "STX", 0xFC00#16, 0x4400#16, 0x0001#16⟩,
   ⟨.std, "STD", 0xFC00#16, 0x4800#16, 0x0000#16⟩,
   ⟨.reserved, "(reserved)", 0xFC00#16, 0x4C00#16, 0x03FF#16⟩,
   ⟨.mov, "MOV", 0xF800#16, 0x5000#16, 0x001F#16⟩,
   ⟨.movi, "MOVI", 0xF800#16, 0x5800#16, 0x0000#16⟩,
   ⟨.and, "AND", 0xF801#16, 0x6000#16, 0x001E#16⟩,
   ⟨.andi, "ANDI", 0xF801#16, 0x6001#16, 0x0000#16⟩,
   ⟨.and3, "AND3", 0xF801#16, 0x6800#16, 0x0002#16⟩,
   ⟨.and3i, "AND3I", 0xF801#16, 0x6801#16, 0x0000#16⟩] ++ [
   ⟨.or, "OR", 0xF801#16, 0x7000#16, 0x001E#16⟩,
   ⟨.ori, "ORI", 0xF801#16, 0x7001#16, 0x0000#16⟩,
   ⟨.or3, "OR3", 0xF801#16, 0x7800#16, 0x0002#16⟩,
   ⟨.or3i, "OR3I", 0xF801#16, 0x7801#16, 0x0000#16⟩,
   ⟨.not, "NOT", 0xF000#16, 0x8000#16, 0x08FF#16⟩,
   ⟨.add, "ADD", 0xF801#16, 0x9000#16, 0x001E#16⟩,
   ⟨.addi, "ADDI", 0xF801#16, 0x9001#16, 0x0000#16⟩,
   ⟨.add3, "ADD3", 0xF801#16, 0x9800#16, 0x0002#16⟩,
   ⟨.add3i, "ADD3I", 0xF801#16, 0x9801#16, 0x0000#16⟩,
   ⟨.sub, "SUB", 0xF801#16, 0xA000#16, 0x001E#16⟩,
   ⟨.subi, "SUBI", 0xF801#16, 0xA001#16, 0x0000#16⟩,
   ⟨.sub3, "SUB3", 0xF801#16, 0xA800#16, 0x0002#16⟩,
   ⟨.sub3i, "SUB3I", 0xF801#16, 0xA801#16, 0x0000#16⟩,
   ⟨.cmp, "CMP", 0xF800#16, 0xB000#16, 0x001F#16⟩,
   ⟨.cmpi, "CMPI", 0xF800#16, 0xB800#16, 0x0000#16⟩,
   ⟨.push, "PUSH", 0xF000#16, 0xC000#16, 0x08FF#16⟩,
   ⟨.pop, "POP", 0xF000#16, 0xD000#16, 0x08FF#16⟩,
   ⟨.jmp, "JMP", 0xF000#16, 0xE000#16, 0x0000#16⟩,
   ⟨.hlt, "HLT", 0xF000#16, 0xF000#16, 0x0FFF#16⟩]

/-- Whether a row selects a word: `(w & mask) == match` (R108). -/
def FormRow.selects (r : FormRow) (w : Word) : Bool := w &&& r.mask == r.pattern

/-! The decoder's output record and the register-file port indices. -/

/-- The form of an instruction. -/
def Instr.form : Instr → Form
  | .b _ => .b
  | .beq _ => .beq
  | .bne _ => .bne
  | .bgt _ => .bgt
  | .blt _ => .blt
  | .ld _ _ => .ld
  | .ldx _ _ _ => .ldx
  | .ldd _ _ _ => .ldd
  | .ldi _ _ => .ldi
  | .st _ _ => .st
  | .stx _ _ _ => .stx
  | .std _ _ _ => .std
  | .reserved _ => .reserved
  | .mov _ _ => .mov
  | .movi _ _ => .movi
  | .and _ _ => .and
  | .andi _ _ => .andi
  | .and3 _ _ _ => .and3
  | .and3i _ _ _ => .and3i
  | .or _ _ => .or
  | .ori _ _ => .ori
  | .or3 _ _ _ => .or3
  | .or3i _ _ _ => .or3i
  | .not _ => .not
  | .add _ _ => .add
  | .addi _ _ => .addi
  | .add3 _ _ _ => .add3
  | .add3i _ _ _ => .add3i
  | .sub _ _ => .sub
  | .subi _ _ => .subi
  | .sub3 _ _ _ => .sub3
  | .sub3i _ _ _ => .sub3i
  | .cmp _ _ => .cmp
  | .cmpi _ _ => .cmpi
  | .push _ => .push
  | .pop _ => .pop
  | .jmp _ _ => .jmp
  | .hlt => .hlt

/-- The layout a form uses (R92). That of the reserved row is the FM the opcode table gives it. -/
def Form.format : Form → Format
  | .b => .fb
  | .beq | .bne | .bgt | .blt => .fc
  | .ld | .ldx | .ldd | .ldi | .st | .stx | .std | .reserved => .fm
  | .mov | .movi | .cmp | .cmpi => .fe
  | .and | .andi | .and3 | .and3i | .or | .ori | .or3 | .or3i => .fa
  | .add | .addi | .add3 | .add3i | .sub | .subi | .sub3 | .sub3i => .fa
  | .not | .push | .pop => .fr
  | .jmp => .fj
  | .hlt => .fn

/-- A field zero-extended to a word, with no scaling (R11, R95). -/
def zext16 {n : Nat} (v : BitVec n) : Word := v.setWidth 16

/-- The operand roles d, s, t and the extended immediate of an instruction (R96, R98); the immediate is 0 where the
form has none. -/
def Instr.roles : Instr → Option Reg × Option Reg × Option Reg × Word
  | .b imm       => (none, none, none, zext16 imm)
  | .beq imm     => (none, none, none, zext16 imm)
  | .bne imm     => (none, none, none, zext16 imm)
  | .bgt imm     => (none, none, none, zext16 imm)
  | .blt imm     => (none, none, none, zext16 imm)
  | .ld d s      => (some d, some s, none, 0)
  | .ldx d s t   => (some d, some s, some t, 0)
  | .ldd d s imm => (some d, some s, none, zext16 imm)
  | .ldi d imm   => (some d, none, none, zext16 imm)
  | .st s d      => (some d, some s, none, 0)
  | .stx s d t   => (some d, some s, some t, 0)
  | .std s d imm => (some d, some s, none, zext16 imm)
  | .reserved _  => (none, none, none, 0)
  | .mov d s     => (some d, some s, none, 0)
  | .movi d imm  => (some d, none, none, zext16 imm)
  | .and d s     => (some d, some s, none, 0)
  | .andi d imm  => (some d, none, none, zext16 imm)
  | .and3 d s t  => (some d, some s, some t, 0)
  | .and3i d s imm => (some d, some s, none, zext16 imm)
  | .or d s     => (some d, some s, none, 0)
  | .ori d imm  => (some d, none, none, zext16 imm)
  | .or3 d s t  => (some d, some s, some t, 0)
  | .or3i d s imm => (some d, some s, none, zext16 imm)
  | .not d       => (some d, none, none, 0)
  | .add d s     => (some d, some s, none, 0)
  | .addi d imm  => (some d, none, none, zext16 imm)
  | .add3 d s t  => (some d, some s, some t, 0)
  | .add3i d s imm => (some d, some s, none, zext16 imm)
  | .sub d s     => (some d, some s, none, 0)
  | .subi d imm  => (some d, none, none, zext16 imm)
  | .sub3 d s t  => (some d, some s, some t, 0)
  | .sub3i d s imm => (some d, some s, none, zext16 imm)
  | .cmp d s     => (some d, some s, none, 0)
  | .cmpi d imm  => (some d, none, none, zext16 imm)
  | .push s      => (none, some s, none, 0)
  | .pop d       => (some d, none, none, 0)
  | .jmp d imm   => (some d, none, none, zext16 imm)
  | .hlt         => (none, none, none, 0)

/-- The decoder's output record for a word (R98). -/
def decodeRecord (w : Word) : DecodedWord :=
  let i := decodeWord w
  { op := slice 12 4 w
    form := i.form
    d := i.roles.1
    s := i.roles.2.1
    t := i.roles.2.2.1
    imm16 := i.roles.2.2.2
    valid := i.valid }

/-- The general registers an instruction reads (R23). -/
def Instr.reads : Instr → List Reg
  | .b _ | .beq _ | .bne _ | .bgt _ | .blt _ | .reserved _ | .ldi _ _ | .movi _ _ | .pop _ | .hlt => []
  | .ld _ s | .ldd _ s _ | .mov _ s | .push s => [s]
  | .ldx _ s t => [s, t]
  | .st s d | .std s d _ => [s, d]
  | .stx s d t => [s, d, t]
  | .and d s | .or d s | .add d s | .sub d s | .cmp d s => [d, s]
  | .andi d _ | .ori d _ | .addi d _ | .subi d _ | .cmpi d _ | .not d | .jmp d _ => [d]
  | .and3 _ s t | .or3 _ s t | .add3 _ s t | .sub3 _ s t => [s, t]
  | .and3i _ s _ | .or3i _ s _ | .add3i _ s _ | .sub3i _ s _ => [s]

/-- The general register an instruction writes, if any (R23). -/
def Instr.writes : Instr → Option Reg
  | .ld d _ | .ldx d _ _ | .ldd d _ _ | .ldi d _ | .pop d | .mov d _ | .movi d _ | .not d => some d
  | .and d _ | .andi d _ | .and3 d _ _ | .and3i d _ _ => some d
  | .or d _ | .ori d _ | .or3 d _ _ | .or3i d _ _ => some d
  | .add d _ | .addi d _ | .add3 d _ _ | .add3i d _ _ => some d
  | .sub d _ | .subi d _ | .sub3 d _ _ | .sub3i d _ _ => some d
  | .b _ | .beq _ | .bne _ | .bgt _ | .blt _ | .st _ _ | .stx _ _ _ | .std _ _ _ => none
  | .reserved _ | .cmp _ _ | .cmpi _ _ | .push _ | .jmp _ _ | .hlt => none

/-- The FM forms for which R97 names the write index. -/
def Form.isLoad : Form → Bool
  | .ld | .ldx | .ldd | .ldi => true
  | .b | .beq | .bne | .bgt | .blt | .st | .stx | .std | .reserved => false
  | .mov | .movi | .cmp | .cmpi | .not | .push | .pop | .jmp | .hlt => false
  | .and | .andi | .and3 | .and3i | .or | .ori | .or3 | .or3i => false
  | .add | .addi | .add3 | .add3i | .sub | .subi | .sub3 | .sub3i => false

/-- The register ports as the decoder drives them for a word (R97). Every port is driven, also where the form discards
its value. Where R97 names no index (ports RB, RC and write of FJ, every port of FB, FC and FN, the write index of the FM
forms that are no load) the index is the free value of log entry 14. The write enable is set for the forms that write a
register (R23, R24). -/
def portsOf (w : Word) : PortIndices :=
  let f := Fields.ofWord w
  let form := formOf w
  let enable := (decodeWord w).writes.isSome
  let free (p : Config.RegPort) : Reg := Config.unnamedPortIndex p w
  match form.format with
  | .fm => ⟨f.f9_7, f.f6_4, f.f3_1, if form.isLoad then f.f9_7 else free .write, enable⟩
  | .fa | .fe | .fr => ⟨f.f10_8, f.f7_5, f.f4_2, f.f10_8, enable⟩
  | .fj => ⟨f.f11_9, free .rb, free .rc, free .write, enable⟩
  | .fb | .fc | .fn => ⟨free .ra, free .rb, free .rc, free .write, enable⟩

/-! The words of the opcode table, as the host numbers them. -/

/-- The words, lowest address first, of an instruction whose `nbits` bits are `w`, bit 0 the least significant bit of
the first word and every bit above `nbits` 0. -/
def tableWords (nbits w : Nat) : List Word :=
  (List.range ((nbits + 15) / 16)).map fun k => BitVec.ofNat 16 (w % 2 ^ nbits / 2 ^ (16 * k))

/-- The instruction the decoder reads from those words, if it takes all of them. -/
def decodeTableWord (nbits w : Nat) : Option Instr :=
  match decode (tableWords nbits w) with
  | .ok (i, []) => some i
  | _ => none

end Sys2Proof
end

