-- ==== Sys2Proof/Machine/State.lean ====
section
/-! DEFINITION. The machine's state as plain data (R20), the outcomes of a step that give no next state, and the
state after reset (R40, R230). -/

namespace Sys2Proof.Machine

/-- FLAGS: exactly one of Negative, Zero, Positive (R31). -/
inductive Flag where
  | n
  | z
  | p
deriving DecidableEq, Repr

/-- The states of the instruction-execution state machine (R240): five working states, three terminal ones. -/
inductive FsmState where
  | fetch
  | decode
  | execute
  | flagUpdate
  | continueOrHalt
  | halted
  | budget
  | fault
deriving DecidableEq, Repr

/-- STATUS: why the run ended, RUNNING until it ends (R38, R203). -/
inductive Status where
  | running
  | halt
  | budgetExceeded
  | decodeError
  | addressError
  | stackError
deriving DecidableEq, Repr

/-- The sub-cause of a StackError (R205). -/
inductive StackCause where
  | overflow
  | underflow
deriving DecidableEq, Repr

/-- A fatal error with its info (R200, R201, R202, R205): the word, the out-of-range address, or the sub-cause and
the SP value. -/
inductive CoreError where
  | decode (word : Word)
  | address (addr : Nat)
  | stack (cause : StackCause) (sp : Word)
deriving DecidableEq, Repr

/-- The info field of the fault record (R212). -/
inductive FaultInfo where
  | word (w : Word)
  | address (a : Nat)
  | stackPointer (sp : Word)
deriving DecidableEq, Repr

/-- The snapshot of the observer port: the list of R215, which holds neither memory nor RUN nor STEPS. -/
structure Snapshot where
  pc    : Word
  regs  : Vector Word 8
  sp    : Word
  lr    : Word
  flags : Flag
  ir    : Word
deriving DecidableEq, Repr

/-- Memory: the words that are not 0x0000, by word address. Canonical form: addresses strictly rising and below
MEM_WORDS, no word 0x0000 (`Memory.wf` in Machine/Ops.lean). -/
abbrev Memory := List WordCell

/-- The final Machine State snapshot, as the fault record and the termination port show it: the list of R215, and with
it RUN, STEPS and every memory word, which R204 and R218 say are shown there (log entry 18). -/
structure MachineSnapshot extends Snapshot where
  run   : Bool
  steps : Nat
  mem   : Memory
deriving DecidableEq, Repr

/-- The fault record a fatal error fills in (R204, R212, R213). -/
structure FaultRecord where
  status   : Status
  cause    : Option StackCause
  info     : FaultInfo
  pc       : Word
  ir       : Word
  snapshot : MachineSnapshot
deriving DecidableEq, Repr

/-- The Machine State (R20, R21), with the fault record (R212), the ROM length (R231) and the host's parameters
(R8), which the spec hands the model as arguments (log entry 1). -/
structure State where
  params : Config.Params
  regs   : Vector Word 8
  sp     : Word
  lr     : Word
  pc     : Word
  flags  : Flag
  run    : Bool
  ir     : Word
  steps  : Nat
  fsm    : FsmState
  status : Status
  mem    : Memory
  romLen : Nat
  fault  : Option FaultRecord
deriving DecidableEq, Repr

/-- Why a step has no next state. The fatal errors of R200 are none of these: the spec describes their entry, so they
lead to a next state, whose FSM state is FAULT (log entry 6). -/
inductive Fault where
  /-- `step` from HALTED, BUDGET or FAULT: a terminal state has no transition except reset (R248, I25 "stuck").
  Raised by `cycle`; safe, since the spec gives no step either. -/
  | terminalState (at_ : FsmState)
  /-- `step` from the middle of a cycle (DECODE to CONTINUE): R247 defines the whole cycle only at FETCH. Raised by
  `cycle`; safe, and no run that starts at FETCH comes there (log entry 7). -/
  | midCycle (at_ : FsmState)
deriving DecidableEq, Repr

/-- Why an instruction has no meaning. -/
inductive Refusal where
  /-- An instruction of the table that the model gives no meaning. No arm of `exec` raises it: every row has its
  meaning. Safe. -/
  | notModelled (mnemonic : String)
deriving DecidableEq, Repr

/-- The state after reset under the host's parameters (R40, R230): every register, flag and control field at the value
of R40, every memory word 0x0000 (R66), no program loaded, no fault record. -/
def State.resetWith (params : Config.Params) : State where
  params := params
  regs   := Vector.replicate 8 0
  sp     := Config.stackBase
  lr     := 0
  pc     := 0
  flags  := .z
  run    := true
  ir     := 0
  steps  := 0
  fsm    := .fetch
  status := .running
  mem    := []
  romLen := 0
  fault  := none

/-- The machine right after reset, under the parameters of log entry 2. -/
def State.reset : State := State.resetWith Config.Params.atReset

end Sys2Proof.Machine
end

