-- ==== Sys2Proof/Machine/Ops.lean ====
section
/-! DEFINITION. The named operations every meaning is built from: memory, registers, the PC sequencer, the effective
address, and raising a fatal error. -/

namespace Sys2Proof.Machine

/-- The result of a meaning and of a step. -/
abbrev Result := Host.Outcome State Fault Refusal

/-! Memory (R60 to R62). -/

/-- What a word that is not listed reads as: 0x0000, the reset content (R66; log entry 4). -/
def Memory.unlisted : Word := 0

/-- The canonical form of a memory: addresses strictly rising, inside the address space, and no word listed that
reads the same unlisted. -/
abbrev Memory.wf (m : Memory) : Prop :=
  m.Pairwise (fun c d => c.1 < d.1) ∧ ∀ c ∈ m, c.1 < Config.memWords ∧ c.2 ≠ Memory.unlisted

/-- The word stored at word address `a`. -/
def Memory.read : Memory → Nat → Word
  | [], _ => Memory.unlisted
  | (b, v) :: rest, a => if b = a then v else Memory.read rest a

/-- The memory with no entry for address `a`. -/
def Memory.erase (m : Memory) (a : Nat) : Memory := m.filter fun c => c.1 ≠ a

/-- The memory with the entry `(a, v)` put before the first entry of a higher address. -/
def Memory.insert : Memory → Nat → Word → Memory
  | [], a, v => [(a, v)]
  | (b, u) :: rest, a, v => if a < b then (a, v) :: (b, u) :: rest else (b, u) :: Memory.insert rest a v

/-- The memory with the word at address `a` replaced by `v`, in canonical form. -/
def Memory.write (m : Memory) (a : Nat) (v : Word) : Memory :=
  if v = Memory.unlisted then m.erase a else (m.erase a).insert a v

/-- The word at address `a` of the state's memory: the observation that statements about memory use. -/
def State.word (s : State) (a : Nat) : Word := s.mem.read a

/-- `MemRead(addr, 1)` with the controller's guard (R60). -/
def memRead (s : State) (addr : Nat) : Except CoreError Word :=
  if Config.memWords ≤ addr then .error (.address addr) else .ok (s.mem.read addr)

/-- `MemWrite(addr, 1, v)` with the controller's guard (R61). -/
def memWrite (s : State) (addr : Nat) (v : Word) : Except CoreError State :=
  if Config.memWords ≤ addr then .error (.address addr) else .ok { s with mem := s.mem.write addr v }

/-! Registers (R22, R24). No register is hard-wired. -/

/-- The value of general register `r`, `x[r]` (R10). -/
def State.reg (s : State) (r : Reg) : Word := s.regs.get r

/-- The state with `x[r] <- v`. -/
def State.setReg (s : State) (r : Reg) (v : Word) : State := { s with regs := s.regs.set r v }

/-- The state with `SP <- v`. -/
def State.setSp (s : State) (v : Word) : State := { s with sp := v }

/-- The state with `FLAGS <- f`. -/
def State.setFlags (s : State) (f : Flag) : State := { s with flags := f }

/-- The state with `RUN <- b`. -/
def State.setRun (s : State) (b : Bool) : State := { s with run := b }

/-! The PC sequencer (R28, R29). -/

/-- The four sources of the next PC (R28). `mem` carries the word JMP has read. -/
inductive PcSource where
  | inc
  | imm12 (target : BitVec 12)
  | imm11 (target : BitVec 11)
  | mem (target : Word)
deriving DecidableEq, Repr

/-- The next PC a source gives; the increment wraps (R28, R29). -/
def PcSource.next (src : PcSource) (pc : Word) : Word :=
  match src with
  | .inc => pc + 1
  | .imm12 target => target.setWidth 16
  | .imm11 target => target.setWidth 16
  | .mem target => target

/-- The state with PC written through the sequencer. -/
def State.sequence (s : State) (src : PcSource) : State := { s with pc := src.next s.pc }

/-! The effective address (R64). -/

/-- `EA(base, off)`: the exact sum, or above 0xFFFF the wrapped sum or AddressError, by EA_OVERFLOW (R64). -/
def effectiveAddress (mode : Config.EaOverflow) (base off : Word) : Except CoreError Nat :=
  let sum := base.toNat + off.toNat
  if sum ≤ 0xFFFF then .ok sum
  else
    match mode with
    | .wrap => .ok (sum - 65536)
    | .fault => .error (.address sum)

/-! Fatal errors (R200 to R213). -/

/-- The STATUS a fatal error sets (R203). -/
def CoreError.status : CoreError → Status
  | .decode _ => .decodeError
  | .address _ => .addressError
  | .stack _ _ => .stackError

/-- The sub-cause in the fault record: only a StackError has one (R212). -/
def CoreError.cause : CoreError → Option StackCause
  | .decode _ => none
  | .address _ => none
  | .stack c _ => some c

/-- The info in the fault record (R212). -/
def CoreError.info : CoreError → FaultInfo
  | .decode w => .word w
  | .address a => .address a
  | .stack _ sp => .stackPointer sp

/-- The snapshot of a state (R215). -/
def State.snapshot (s : State) : Snapshot where
  pc := s.pc
  regs := s.regs
  sp := s.sp
  lr := s.lr
  flags := s.flags
  ir := s.ir

/-- The final snapshot of a state (R204, R212, R216, R218). -/
def State.machineSnapshot (s : State) : MachineSnapshot where
  toSnapshot := s.snapshot
  run := s.run
  steps := s.steps
  mem := s.mem

/-- The fault record of error `e` raised in state `s` (R204, R212). -/
def faultRecord (e : CoreError) (s : State) : FaultRecord where
  status := e.status
  cause := e.cause
  info := e.info
  pc := s.pc
  ir := s.ir
  snapshot := s.machineSnapshot

/-- The state after `raise e` (R200, R204, R209): STATUS, the FSM state and the fault record are written, and nothing
else changes. There is no return from it (R210). -/
def State.raised (s : State) (e : CoreError) : State :=
  { s with status := e.status, fsm := .fault, fault := some (faultRecord e s) }

/-- `raise e` as the outcome of a meaning: the spec describes the fault's entry, so it is a next state (log entry 6). -/
def raise (e : CoreError) (s : State) : Result := .next (s.raised e)

/-! Codes of the host ports. -/

/-- The numeric code of a STATUS value (R203). -/
def Status.code : Status → Nat
  | .running => 0
  | .halt => 1
  | .budgetExceeded => 2
  | .decodeError => 3
  | .addressError => 4
  | .stackError => 5

/-- The numeric code of a StackError sub-cause (R203). -/
def StackCause.code : StackCause → Nat
  | .overflow => 0
  | .underflow => 1

/-- The numeric code of an FSM state (R240). -/
def FsmState.code : FsmState → Nat
  | .fetch => 0
  | .decode => 1
  | .execute => 2
  | .flagUpdate => 3
  | .continueOrHalt => 4
  | .halted => 5
  | .budget => 6
  | .fault => 7

/-- HALTED, BUDGET and FAULT: the terminal states, which only reset leaves (R210, R240). -/
def FsmState.terminal : FsmState → Bool
  | .halted | .budget | .fault => true
  | .fetch | .decode | .execute | .flagUpdate | .continueOrHalt => false

/-! Regions and the stack's extent (R65, R68). -/

/-- The regions of the address map (R65). -/
inductive Region where
  | rom
  | stack
  | free
deriving DecidableEq, Repr

/-- The region of a word address: ROM is `[0, L)`, the stack `[STACK_FLOOR, STACK_BASE]`, the rest free data (R65). -/
def State.region (s : State) (a : Nat) : Region :=
  if a < s.romLen then .rom
  else if s.params.stackFloor.toNat ≤ a ∧ a ≤ Config.stackBase.toNat then .stack
  else .free

/-- How many words the stack holds, at `[SP, STACK_BASE - 1]` (R68). -/
def State.stackDepth (s : State) : Nat := Config.stackBase.toNat - s.sp.toNat

/-- The stack is empty when SP = STACK_BASE (R25, R68). -/
def State.stackEmpty (s : State) : Bool := s.sp == Config.stackBase

/-- The stack is full when SP = STACK_FLOOR (R68). -/
def State.stackFull (s : State) : Bool := s.sp == s.params.stackFloor

end Sys2Proof.Machine
end

