-- ==== Sys2Proof/Machine/Flags.lean ====
section
/-! DEFINITION. The condition flags: their derivation, their physical encoding, which forms write them, and the result
they are derived from (R31 to R34). -/

namespace Sys2Proof.Machine

/-- `flagsOf(r)` under a FLAG_MODE (R33). -/
def flagsOf (mode : Config.FlagMode) (r : Word) : Flag :=
  if r = 0 then .z
  else
    match mode with
    | .signed => if r.msb then .n else .p
    | .sourceLiteral => .p

/-- The one-hot encoding of FLAGS over the bits N, Z, P (R31). -/
def Flag.oneHot : Flag → BitVec 3
  | .n => 0b100#3
  | .z => 0b010#3
  | .p => 0b001#3

/-- The flag-producing forms of R32. -/
def flagProducing : Instr → Bool
  | .mov _ _ | .movi _ _ => true
  | .and _ _ | .andi _ _ | .and3 _ _ _ | .and3i _ _ _ => true
  | .or _ _ | .ori _ _ | .or3 _ _ _ | .or3i _ _ _ => true
  | .not _ => true
  | .add _ _ | .addi _ _ | .add3 _ _ _ | .add3i _ _ _ => true
  | .sub _ _ | .subi _ _ | .sub3 _ _ _ | .sub3i _ _ _ => true
  | .cmp _ _ | .cmpi _ _ => true
  | .b _ | .beq _ | .bne _ | .bgt _ | .blt _ => false
  | .ld _ _ | .ldx _ _ _ | .ldd _ _ _ | .ldi _ _ => false
  | .st _ _ | .stx _ _ _ | .std _ _ _ | .reserved _ => false
  | .push _ | .pop _ | .jmp _ _ | .hlt => false

/-- The result `r` a flag-producing form's rule names (R32), which EXECUTE carries to FLAGUPDATE (R243): the value
written to `d`, or for CMP and CMPI the difference. The other forms carry none; 0 stands for it and nothing reads it. -/
def resultOf (s : State) : Instr → Word
  | .mov _ r      => s.reg r
  | .movi _ imm   => zext16 imm
  | .and d r      => s.reg d &&& s.reg r
  | .andi d imm   => s.reg d &&& zext16 imm
  | .and3 _ r t   => s.reg r &&& s.reg t
  | .and3i _ r imm => s.reg r &&& zext16 imm
  | .or d r       => s.reg d ||| s.reg r
  | .ori d imm    => s.reg d ||| zext16 imm
  | .or3 _ r t    => s.reg r ||| s.reg t
  | .or3i _ r imm => s.reg r ||| zext16 imm
  | .not d        => ~~~ s.reg d
  | .add d r      => s.reg d + s.reg r
  | .addi d imm   => s.reg d + zext16 imm
  | .add3 _ r t   => s.reg r + s.reg t
  | .add3i _ r imm => s.reg r + zext16 imm
  | .sub d r      => s.reg d - s.reg r
  | .subi d imm   => s.reg d - zext16 imm
  | .sub3 _ r t   => s.reg r - s.reg t
  | .sub3i _ r imm => s.reg r - zext16 imm
  | .cmp d r      => s.reg d - s.reg r
  | .cmpi d imm   => s.reg d - zext16 imm
  | .b _ | .beq _ | .bne _ | .bgt _ | .blt _ => 0
  | .ld _ _ | .ldx _ _ _ | .ldd _ _ _ | .ldi _ _ => 0
  | .st _ _ | .stx _ _ _ | .std _ _ _ | .reserved _ => 0
  | .push _ | .pop _ | .jmp _ _ | .hlt => 0

/-- FLAGS after an operation that derives them from result `r`. -/
def State.flagged (s : State) (r : Word) : State := s.setFlags (flagsOf s.params.flagMode r)

end Sys2Proof.Machine
end

