-- ==== Sys2Proof/Machine/Operands.lean ====
section
/-! DEFINITION. The operand forms and the shared shapes of the meanings: writing a flag-producing result, comparing,
branching, loading, storing, the stack bounds. -/

namespace Sys2Proof.Machine

/-! Addresses. LD and ST use the register value itself, with no sum (R64). -/

/-- The address operand `[Rn]` (R64, R150, R154). -/
def addrIndirect (s : State) (base : Reg) : Except CoreError Nat := .ok (s.reg base).toNat

/-- The address operand `[Rn, Rt]` (R64, R151, R155). -/
def addrIndexed (s : State) (base off : Reg) : Except CoreError Nat :=
  effectiveAddress s.params.eaOverflow (s.reg base) (s.reg off)

/-- The address operand `[Rn, #imm]`, the immediate zero-extended (R64, R152, R156, R190). -/
def addrOffset {n : Nat} (s : State) (base : Reg) (off : BitVec n) : Except CoreError Nat :=
  effectiveAddress s.params.eaOverflow (s.reg base) (zext16 off)

/-- The address PUSH writes: SP - 1, or StackError(OVERFLOW) if SP <= STACK_FLOOR (R69, R185). -/
def addrPush (s : State) : Except CoreError Nat :=
  if s.sp ≤ s.params.stackFloor then .error (.stack .overflow s.sp) else .ok (s.sp - 1).toNat

/-- The address POP reads: SP, or StackError(UNDERFLOW) if SP >= STACK_BASE (R69, R186). -/
def addrPop (s : State) : Except CoreError Nat :=
  if Config.stackBase ≤ s.sp then .error (.stack .underflow s.sp) else .ok s.sp.toNat

/-! Shapes of meanings. Each reads its operands from the state the instruction began in (R13, R24). -/

/-- `x[d] <- r; FLAGS <- flagsOf(r); pc <- PC +16 1`: every flag-producing form that writes a register. -/
def writeResult (d : Reg) (r : Word) (s : State) : Result :=
  .next (((s.setReg d r).flagged r).sequence .inc)

/-- `FLAGS <- flagsOf(r); pc <- PC +16 1`: CMP and CMPI, which store no result. -/
def compareResult (r : Word) (s : State) : Result := .next ((s.flagged r).sequence .inc)

/-- A conditional branch: IMM11 when taken, INC when not (R28). -/
def branchWhen (taken : Bool) (target : BitVec 11) (s : State) : Result :=
  .next (s.sequence (if taken then .imm11 target else .inc))

/-- A load into `d` from the word at an address operand; an error of the address or of the controller is raised and
nothing is written. -/
def loadFrom (d : Reg) (addr : Except CoreError Nat) (s : State) : Result :=
  match addr with
  | .error e => raise e s
  | .ok a =>
    match memRead s a with
    | .error e => raise e s
    | .ok v => .next ((s.setReg d v).sequence .inc)

/-- A store of `v` to the word at an address operand. -/
def storeTo (v : Word) (addr : Except CoreError Nat) (s : State) : Result :=
  match addr with
  | .error e => raise e s
  | .ok a =>
    match memWrite s a v with
    | .error e => raise e s
    | .ok s' => .next (s'.sequence .inc)

/-- PUSH: the bound check, SP decremented, the word written at the new SP (R185). -/
def pushWord (v : Word) (s : State) : Result :=
  match addrPush s with
  | .error e => raise e s
  | .ok a =>
    match memWrite s a v with
    | .error e => raise e s
    | .ok s' => .next ((s'.setSp (s.sp - 1)).sequence .inc)

/-- POP: the bound check, the word at SP read, SP incremented (R186). -/
def popWord (d : Reg) (s : State) : Result :=
  match addrPop s with
  | .error e => raise e s
  | .ok a =>
    match memRead s a with
    | .error e => raise e s
    | .ok v => .next (((s.setReg d v).setSp (s.sp + 1)).sequence .inc)

/-- A jump to the word at an address operand (R190). -/
def jumpThrough (addr : Except CoreError Nat) (s : State) : Result :=
  match addr with
  | .error e => raise e s
  | .ok a =>
    match memRead s a with
    | .error e => raise e s
    | .ok v => .next (s.sequence (.mem v))

end Sys2Proof.Machine
end

