-- ==== Sys2Proof/Machine/Arith.lean ====
section
/-! DEFINITION. Addition, subtraction and comparison modulo 65536 (44_arith.md, R171 to R181). All write FLAGS. -/

namespace Sys2Proof.Machine

/-- ADD (R171): `x[d] <- x[d] +16 x[r]`. -/
def execAdd (d r : Reg) (s : State) : Result := writeResult d (s.reg d + s.reg r) s

/-- ADDI (R172): `x[d] <- x[d] +16 zext_16(imm7)`. -/
def execAddi (d : Reg) (imm : BitVec 7) (s : State) : Result := writeResult d (s.reg d + zext16 imm) s

/-- ADD3 (R173): `x[d] <- x[r] +16 x[t]`. -/
def execAdd3 (d r t : Reg) (s : State) : Result := writeResult d (s.reg r + s.reg t) s

/-- ADD3I (R174): `x[d] <- x[r] +16 zext_16(imm4)`. -/
def execAdd3i (d r : Reg) (imm : BitVec 4) (s : State) : Result := writeResult d (s.reg r + zext16 imm) s

/-- SUB (R175): `x[d] <- x[d] -16 x[r]`. -/
def execSub (d r : Reg) (s : State) : Result := writeResult d (s.reg d - s.reg r) s

/-- SUBI (R176): `x[d] <- x[d] -16 zext_16(imm7)`. -/
def execSubi (d : Reg) (imm : BitVec 7) (s : State) : Result := writeResult d (s.reg d - zext16 imm) s

/-- SUB3 (R177): `x[d] <- x[r] -16 x[t]`. -/
def execSub3 (d r t : Reg) (s : State) : Result := writeResult d (s.reg r - s.reg t) s

/-- SUB3I (R178): `x[d] <- x[r] -16 zext_16(imm4)`. -/
def execSub3i (d r : Reg) (imm : BitVec 4) (s : State) : Result := writeResult d (s.reg r - zext16 imm) s

/-- CMP (R179): FLAGS from `x[d] -16 x[r]`, which is not stored. -/
def execCmp (d r : Reg) (s : State) : Result := compareResult (s.reg d - s.reg r) s

/-- CMPI (R180): FLAGS from `x[d] -16 zext_16(imm8)`, which is not stored. -/
def execCmpi (d : Reg) (imm : BitVec 8) (s : State) : Result := compareResult (s.reg d - zext16 imm) s

end Sys2Proof.Machine
end

