-- ==== Sys2Proof/Machine/Branch.lean ====
section
/-! DEFINITION. The branches (40_branch.md, R140 to R146). None writes a register or FLAGS. -/

namespace Sys2Proof.Machine

/-- B (R140): PC becomes the 12-bit immediate. -/
def execB (imm : BitVec 12) (s : State) : Result := .next (s.sequence (.imm12 imm))

/-- BEQ (R141): taken when FLAGS is Z. -/
def execBeq (imm : BitVec 11) (s : State) : Result := branchWhen (s.flags == .z) imm s

/-- BNE (R142): taken when FLAGS is not Z. -/
def execBne (imm : BitVec 11) (s : State) : Result := branchWhen (s.flags != .z) imm s

/-- BGT (R143): taken when FLAGS is P. -/
def execBgt (imm : BitVec 11) (s : State) : Result := branchWhen (s.flags == .p) imm s

/-- BLT (R144): taken when FLAGS is N. -/
def execBlt (imm : BitVec 11) (s : State) : Result := branchWhen (s.flags == .n) imm s

end Sys2Proof.Machine
end

