-- ==== Sys2Proof/Machine/JumpHalt.lean ====
section
/-! DEFINITION. The indirect jump and the halt (46_jump_halt.md, R190 to R192). Neither writes FLAGS. -/

namespace Sys2Proof.Machine

/-- JMP (R190): `pc <- MemRead(EA(x[d], zext_16(imm9)))`. -/
def execJmp (d : Reg) (imm : BitVec 9) (s : State) : Result := jumpThrough (addrOffset s d imm) s

/-- HLT (R191): `pc <- PC +16 1; RUN <- 0`. The cycle's end turns RUN = 0 into HALTED (R245). -/
def execHlt (s : State) : Result := .next ((s.sequence .inc).setRun false)

end Sys2Proof.Machine
end

