-- ==== Sys2Proof/Machine/LoadStore.lean ====
section
/-! DEFINITION. The loads and stores, and the reserved store mode (41_load_store.md, R150 to R157). None writes FLAGS. -/

namespace Sys2Proof.Machine

/-- LD (R150): `x[d] <- MemRead(x[r])`. -/
def execLd (d r : Reg) (s : State) : Result := loadFrom d (addrIndirect s r) s

/-- LDX (R151): `x[d] <- MemRead(EA(x[r], x[t]))`. -/
def execLdx (d r t : Reg) (s : State) : Result := loadFrom d (addrIndexed s r t) s

/-- LDD (R152): `x[d] <- MemRead(EA(x[r], zext_16(imm4)))`. -/
def execLdd (d r : Reg) (imm : BitVec 4) (s : State) : Result := loadFrom d (addrOffset s r imm) s

/-- LDI (R153): `x[d] <- zext_16(imm7)`, with no memory access and no FLAGS write. -/
def execLdi (d : Reg) (imm : BitVec 7) (s : State) : Result := .next ((s.setReg d (zext16 imm)).sequence .inc)

/-- ST (R154): `MemWrite(x[d], x[r])`. -/
def execSt (r d : Reg) (s : State) : Result := storeTo (s.reg r) (addrIndirect s d) s

/-- STX (R155): `MemWrite(EA(x[d], x[t]), x[r])`. -/
def execStx (r d t : Reg) (s : State) : Result := storeTo (s.reg r) (addrIndexed s d t) s

/-- STD (R156): `MemWrite(EA(x[d], zext_16(imm4)), x[r])`. -/
def execStd (r d : Reg) (imm : BitVec 4) (s : State) : Result := storeTo (s.reg r) (addrOffset s d imm) s

/-- The reserved store mode (R100, R157, R201): DecodeError with the instruction word, and no other effect. -/
def execReserved (low : BitVec 10) (s : State) : Result := raise (.decode (encode (.reserved low))) s

end Sys2Proof.Machine
end

