-- ==== Sys2Proof/Machine/Logic.lean ====
section
/-! DEFINITION. The bitwise operations (43_logic.md, R162 to R170). All write FLAGS. -/

namespace Sys2Proof.Machine

/-- AND (R162): `x[d] <- x[d] & x[r]`. -/
def execAnd (d r : Reg) (s : State) : Result := writeResult d (s.reg d &&& s.reg r) s

/-- ANDI (R163): `x[d] <- x[d] & zext_16(imm7)`. -/
def execAndi (d : Reg) (imm : BitVec 7) (s : State) : Result := writeResult d (s.reg d &&& zext16 imm) s

/-- AND3 (R164): `x[d] <- x[r] & x[t]`. -/
def execAnd3 (d r t : Reg) (s : State) : Result := writeResult d (s.reg r &&& s.reg t) s

/-- AND3I (R165): `x[d] <- x[r] & zext_16(imm4)`. -/
def execAnd3i (d r : Reg) (imm : BitVec 4) (s : State) : Result := writeResult d (s.reg r &&& zext16 imm) s

/-- OR (R166): `x[d] <- x[d] | x[r]`. -/
def execOr (d r : Reg) (s : State) : Result := writeResult d (s.reg d ||| s.reg r) s

/-- ORI (R167): `x[d] <- x[d] | zext_16(imm7)`. -/
def execOri (d : Reg) (imm : BitVec 7) (s : State) : Result := writeResult d (s.reg d ||| zext16 imm) s

/-- OR3 (R168): `x[d] <- x[r] | x[t]`. -/
def execOr3 (d r t : Reg) (s : State) : Result := writeResult d (s.reg r ||| s.reg t) s

/-- OR3I (R169): `x[d] <- x[r] | zext_16(imm4)`. -/
def execOr3i (d r : Reg) (imm : BitVec 4) (s : State) : Result := writeResult d (s.reg r ||| zext16 imm) s

/-- NOT (R170): `x[d] <- ~16 x[d]`. -/
def execNot (d : Reg) (s : State) : Result := writeResult d (~~~ s.reg d) s

end Sys2Proof.Machine
end

