-- ==== Sys2Proof/Machine/Move.lean ====
section
/-! DEFINITION. The moves (42_move.md, R160, R161). Both write FLAGS. -/

namespace Sys2Proof.Machine

/-- MOV (R160): `x[d] <- x[r]`. -/
def execMov (d r : Reg) (s : State) : Result := writeResult d (s.reg r) s

/-- MOVI (R161): `x[d] <- zext_16(imm8)`. -/
def execMovi (d : Reg) (imm : BitVec 8) (s : State) : Result := writeResult d (zext16 imm) s

end Sys2Proof.Machine
end

