-- ==== Sys2Proof/Machine/Stack.lean ====
section
/-! DEFINITION. The stack instructions (45_stack.md, R185 to R187). Neither writes FLAGS. -/

namespace Sys2Proof.Machine

/-- PUSH (R185): StackError(OVERFLOW) if SP <= STACK_FLOOR, else SP is decremented and x[r] stored there. -/
def execPush (r : Reg) (s : State) : Result := pushWord (s.reg r) s

/-- POP (R186): StackError(UNDERFLOW) if SP >= STACK_BASE, else the word at SP is loaded and SP incremented. -/
def execPop (d : Reg) (s : State) : Result := popWord d s

end Sys2Proof.Machine
end

