-- ==== Sys2Proof/Machine/Dispatch.lean ====
section
/-! DEFINITION. The dispatch of an instruction to its meaning (R98, R243): one arm per constructor of Instr. -/

namespace Sys2Proof.Machine

/-- What an instruction does in the states EXECUTE and FLAGUPDATE (R243, R244): its next state, or the state after
the fatal error it raises. -/
def exec (i : Instr) (s : State) : Host.Outcome State Fault Refusal :=
  match i with
  | .b imm => Sys2Proof.Machine.execB imm s
  | .beq imm => Sys2Proof.Machine.execBeq imm s
  | .bne imm => Sys2Proof.Machine.execBne imm s
  | .bgt imm => Sys2Proof.Machine.execBgt imm s
  | .blt imm => Sys2Proof.Machine.execBlt imm s
  | .ld d r => Sys2Proof.Machine.execLd d r s
  | .ldx d r t => Sys2Proof.Machine.execLdx d r t s
  | .ldd d r imm => Sys2Proof.Machine.execLdd d r imm s
  | .ldi d imm => Sys2Proof.Machine.execLdi d imm s
  | .st r d => Sys2Proof.Machine.execSt r d s
  | .stx r d t => Sys2Proof.Machine.execStx r d t s
  | .std r d imm => Sys2Proof.Machine.execStd r d imm s
  | .reserved low => Sys2Proof.Machine.execReserved low s
  | .mov d r => Sys2Proof.Machine.execMov d r s
  | .movi d imm => Sys2Proof.Machine.execMovi d imm s
  | .and d r => Sys2Proof.Machine.execAnd d r s
  | .andi d imm => Sys2Proof.Machine.execAndi d imm s
  | .and3 d r t => Sys2Proof.Machine.execAnd3 d r t s
  | .and3i d r imm => Sys2Proof.Machine.execAnd3i d r imm s
  | .or d r => Sys2Proof.Machine.execOr d r s
  | .ori d imm => Sys2Proof.Machine.execOri d imm s
  | .or3 d r t => Sys2Proof.Machine.execOr3 d r t s
  | .or3i d r imm => Sys2Proof.Machine.execOr3i d r imm s
  | .not d => Sys2Proof.Machine.execNot d s
  | .add d r => Sys2Proof.Machine.execAdd d r s
  | .addi d imm => Sys2Proof.Machine.execAddi d imm s
  | .add3 d r t => Sys2Proof.Machine.execAdd3 d r t s
  | .add3i d r imm => Sys2Proof.Machine.execAdd3i d r imm s
  | .sub d r => Sys2Proof.Machine.execSub d r s
  | .subi d imm => Sys2Proof.Machine.execSubi d imm s
  | .sub3 d r t => Sys2Proof.Machine.execSub3 d r t s
  | .sub3i d r imm => Sys2Proof.Machine.execSub3i d r imm s
  | .cmp d r => Sys2Proof.Machine.execCmp d r s
  | .cmpi d imm => Sys2Proof.Machine.execCmpi d imm s
  | .push r => Sys2Proof.Machine.execPush r s
  | .pop d => Sys2Proof.Machine.execPop d s
  | .jmp d imm => Sys2Proof.Machine.execJmp d imm s
  | .hlt => Sys2Proof.Machine.execHlt s

end Sys2Proof.Machine
end

