-- ==== Sys2Proof/Machine/Cycle.lean ====
section
/-! DEFINITION. The whole cycle of the state machine as one function (R247): the budget test and the fetch, the
decoded instruction's execution, and Continue-or-Halt with its observer snapshot. -/

namespace Sys2Proof.Machine

/-- The word FETCH reads: the word at PC, wherever PC points (R27, R241). PC is below MEM_WORDS, so the read's guard
cannot fire. -/
def State.fetchWord (s : State) : Word := s.word s.pc.toNat

/-- FETCH with budget left: IR takes the word at PC (R36, R241). -/
def State.fetched (s : State) : State := { s with ir := s.fetchWord }

/-- FETCH without budget: STATUS = BUDGET_EXCEEDED, no fetch, nothing else changed (R241, R246). -/
def State.outOfBudget (s : State) : State := { s with status := .budgetExceeded, fsm := .budget }

/-- CONTINUE (R245): STEPS is incremented; RUN = 0 ends the run with STATUS = HALT, otherwise FETCH comes next. -/
def State.continued (s : State) : State :=
  if s.run then { s with steps := s.steps + 1, fsm := .fetch }
  else { s with steps := s.steps + 1, status := .halt, fsm := .halted }

/-- The end of a cycle: a faulting cycle is over, and no snapshot is emitted (R204, R215); any other passes through
CONTINUE, which emits one. -/
def endCycle (r : Result) : Result × Option Snapshot :=
  match r with
  | .next t => if t.fsm = .fault then (.next t, none) else (.next t.continued, some t.snapshot)
  | .fault f => (.fault f, none)
  | .refused f => (.refused f, none)

/-- One cycle from state `s`, with the snapshot the observer port emits in it (R215, R247). It is defined at FETCH
only: the terminal states have no transition (R248), and R247 does not start in the middle of a cycle. -/
def cycle (s : State) : Result × Option Snapshot :=
  match s.fsm with
  | .fetch =>
    if s.params.stepBudget ≤ s.steps then (.next s.outOfBudget, none)
    else endCycle (exec (decodeWord s.fetchWord) s.fetched)
  | .halted => (.fault (.terminalState .halted), none)
  | .budget => (.fault (.terminalState .budget), none)
  | .fault => (.fault (.terminalState .fault), none)
  | .decode => (.fault (.midCycle .decode), none)
  | .execute => (.fault (.midCycle .execute), none)
  | .flagUpdate => (.fault (.midCycle .flagUpdate), none)
  | .continueOrHalt => (.fault (.midCycle .continueOrHalt), none)

/-- The state with an instruction's words, of which the first is one whole instruction (R90), stored at PC. -/
def State.placeAtPc (s : State) (words : List Word) : State :=
  { s with mem := s.mem.write s.pc.toNat (words.headD 0) }

end Sys2Proof.Machine
end

