-- ==== Sys2Proof/Machine/Step.lean ====
section
/-! DEFINITION. The machine's step, and where the host places an instruction for the next step. -/

namespace Sys2Proof.Machine

/-- One step is one whole cycle (R247). -/
def step (s : State) : Host.Outcome State Fault Refusal := (cycle s).1

/-- The state whose next step fetches and runs the instruction of bits `w`: the instruction's word is stored at PC, as
the program load would have put it there (R231; log entry 12). -/
def State.withFetchWord (s : State) (nbits w : Nat) : State := s.placeAtPc (tableWords nbits w)

end Sys2Proof.Machine
end

