-- ==== Sys2Proof/Machine/Assembler.lean ====
section
/-! DEFINITION. The assembler's contract with the core (R104 to R107): a mnemonic and its operands give one word, or
an error that names the offending line and token. How a text line becomes a mnemonic and operands is in
Machine/AsmText.lean. -/

namespace Sys2Proof.Machine

/-- An operand of an assembly line (R104): `Rn`, `#n`, a bare number, `[Rn]`, `[Rn, Rt]`, `[Rn, #k]`. Numbers are not
yet checked against any width. -/
inductive AsmOperand where
  | reg (n : Nat)
  | imm (n : Nat)
  | target (n : Nat)
  | indirect (base : Nat)
  | indexed (base off : Nat)
  | offset (base off : Nat)
deriving DecidableEq, Repr

/-- A line: a mnemonic and its operands in order (R104). -/
structure AsmLine where
  mnemonic : String
  operands : List AsmOperand
deriving DecidableEq, Repr

/-- The assembler's errors (R105). -/
inductive AsmError where
  /-- The mnemonic is none of R104's. -/
  | unknownMnemonic (mnemonic : String)
  /-- A number does not fit the unsigned width of its field; it is never truncated. -/
  | outOfRange (value : Nat)
  /-- Fewer operands than the form takes. -/
  | missingOperand
  /-- An operand of another kind than the form takes, one too many, or text that is no operand (log entry 15). -/
  | badOperands
deriving DecidableEq, Repr

/-- A register operand (R22, R105). -/
def asmReg (n : Nat) : Except AsmError Reg := if h : n < 8 then .ok ⟨n, h⟩ else .error (.outOfRange n)

/-- An immediate or target operand of `width` bits (R95, R105). -/
def asmImm (width n : Nat) : Except AsmError (BitVec width) :=
  if n < 2 ^ width then .ok (BitVec.ofNat width n) else .error (.outOfRange n)

/-- The form a mnemonic names (R104, R106); the reserved row has no mnemonic. -/
def formNamed (mnemonic : String) : Option Form :=
  (formTable.find? fun r => r.form != .reserved && r.mnemonic == mnemonic).map (·.form)

/-- How many operands a form takes (R104). -/
def operandCount : Form → Nat
  | .hlt | .reserved => 0
  | .b | .beq | .bne | .bgt | .blt | .not | .push | .pop | .jmp => 1
  | .and3 | .and3i | .or3 | .or3i | .add3 | .add3i | .sub3 | .sub3i => 3
  | .ld | .ldx | .ldd | .ldi | .st | .stx | .std | .mov | .movi | .cmp | .cmpi => 2
  | .and | .andi | .or | .ori | .add | .addi | .sub | .subi => 2

/-- A form with one register operand. -/
def asm1 (mk : Reg → Instr) (a : Nat) : Except AsmError Instr := return mk (← asmReg a)

/-- A form with two register operands. -/
def asm2 (mk : Reg → Reg → Instr) (a b : Nat) : Except AsmError Instr := return mk (← asmReg a) (← asmReg b)

/-- A form with three register operands. -/
def asm3 (mk : Reg → Reg → Reg → Instr) (a b c : Nat) : Except AsmError Instr :=
  return mk (← asmReg a) (← asmReg b) (← asmReg c)

/-- A form with an immediate operand alone. -/
def asmI {n : Nat} (mk : BitVec n → Instr) (a : Nat) : Except AsmError Instr := return mk (← asmImm n a)

/-- A form with a register and an immediate. -/
def asm1I {n : Nat} (mk : Reg → BitVec n → Instr) (a k : Nat) : Except AsmError Instr :=
  return mk (← asmReg a) (← asmImm n k)

/-- A form with two registers and an immediate. -/
def asm2I {n : Nat} (mk : Reg → Reg → BitVec n → Instr) (a b k : Nat) : Except AsmError Instr :=
  return mk (← asmReg a) (← asmReg b) (← asmImm n k)

/-- The instruction of a form and its operands (R104, R105). Of several faults, too few operands come before a wrong kind
or number of them, and that before the ranges, left to right: DESIGN CHOICE (log entry 15). -/
def assembleForm (form : Form) (operands : List AsmOperand) : Except AsmError Instr :=
  match form, operands with
  | .b, [.target n] => asmI .b n
  | .beq, [.target n] => asmI .beq n
  | .bne, [.target n] => asmI .bne n
  | .bgt, [.target n] => asmI .bgt n
  | .blt, [.target n] => asmI .blt n
  | .ld, [.reg d, .indirect r] => asm2 .ld d r
  | .ldx, [.reg d, .indexed r t] => asm3 .ldx d r t
  | .ldd, [.reg d, .offset r k] => asm2I .ldd d r k
  | .ldi, [.reg d, .imm k] => asm1I .ldi d k
  | .st, [.reg r, .indirect d] => asm2 .st r d
  | .stx, [.reg r, .indexed d t] => asm3 .stx r d t
  | .std, [.reg r, .offset d k] => asm2I .std r d k
  | .mov, [.reg d, .reg r] => asm2 .mov d r
  | .movi, [.reg d, .imm k] => asm1I .movi d k
  | .and, [.reg d, .reg r] => asm2 .and d r
  | .andi, [.reg d, .imm k] => asm1I .andi d k
  | .and3, [.reg d, .reg r, .reg t] => asm3 .and3 d r t
  | .and3i, [.reg d, .reg r, .imm k] => asm2I .and3i d r k
  | .or, [.reg d, .reg r] => asm2 .or d r
  | .ori, [.reg d, .imm k] => asm1I .ori d k
  | .or3, [.reg d, .reg r, .reg t] => asm3 .or3 d r t
  | .or3i, [.reg d, .reg r, .imm k] => asm2I .or3i d r k
  | .not, [.reg d] => asm1 .not d
  | .add, [.reg d, .reg r] => asm2 .add d r
  | .addi, [.reg d, .imm k] => asm1I .addi d k
  | .add3, [.reg d, .reg r, .reg t] => asm3 .add3 d r t
  | .add3i, [.reg d, .reg r, .imm k] => asm2I .add3i d r k
  | .sub, [.reg d, .reg r] => asm2 .sub d r
  | .subi, [.reg d, .imm k] => asm1I .subi d k
  | .sub3, [.reg d, .reg r, .reg t] => asm3 .sub3 d r t
  | .sub3i, [.reg d, .reg r, .imm k] => asm2I .sub3i d r k
  | .cmp, [.reg d, .reg r] => asm2 .cmp d r
  | .cmpi, [.reg d, .imm k] => asm1I .cmpi d k
  | .push, [.reg r] => asm1 .push r
  | .pop, [.reg d] => asm1 .pop d
  | .jmp, [.offset d k] => asm1I .jmp d k
  | .hlt, [] => .ok .hlt
  | form, operands =>
    if operands.length < operandCount form then .error .missingOperand else .error .badOperands

/-- The instruction of a line. -/
def assembleLine (line : AsmLine) : Except AsmError Instr :=
  match formNamed line.mnemonic with
  | none => .error (.unknownMnemonic line.mnemonic)
  | some form => assembleForm form line.operands

/-- The words of a program, or the number of the first offending line and its error (R105); that the first is reported
is a DESIGN CHOICE (log entry 15). -/
def assembleFrom (number : Nat) : List AsmLine → Except (Nat × AsmError) (List Word)
  | [] => .ok []
  | line :: rest =>
    match assembleLine line with
    | .error e => .error (number, e)
    | .ok i =>
      match assembleFrom (number + 1) rest with
      | .error e => .error e
      | .ok words => .ok (encode i :: words)

/-- The words of a program, its lines numbered from 1 (R105). -/
def assemble (program : List AsmLine) : Except (Nat × AsmError) (List Word) := assembleFrom 1 program

/-- The assembly line of an instruction (R104): what a disassembler would print. The reserved encoding has none. -/
def disassemble (i : Instr) : Option AsmLine :=
  let line (m : String) (ops : List AsmOperand) : Option AsmLine := some ⟨m, ops⟩
  match i with
  | .b imm => line "B" [.target imm.toNat]
  | .beq imm => line "BEQ" [.target imm.toNat]
  | .bne imm => line "BNE" [.target imm.toNat]
  | .bgt imm => line "BGT" [.target imm.toNat]
  | .blt imm => line "BLT" [.target imm.toNat]
  | .ld d r => line "LD" [.reg d, .indirect r]
  | .ldx d r t => line "LDX" [.reg d, .indexed r t]
  | .ldd d r imm => line "LDD" [.reg d, .offset r imm.toNat]
  | .ldi d imm => line "LDI" [.reg d, .imm imm.toNat]
  | .st r d => line "ST" [.reg r, .indirect d]
  | .stx r d t => line "STX" [.reg r, .indexed d t]
  | .std r d imm => line "STD" [.reg r, .offset d imm.toNat]
  | .reserved _ => none
  | .mov d r => line "MOV" [.reg d, .reg r]
  | .movi d imm => line "MOVI" [.reg d, .imm imm.toNat]
  | .and d r => line "AND" [.reg d, .reg r]
  | .andi d imm => line "ANDI" [.reg d, .imm imm.toNat]
  | .and3 d r t => line "AND3" [.reg d, .reg r, .reg t]
  | .and3i d r imm => line "AND3I" [.reg d, .reg r, .imm imm.toNat]
  | .or d r => line "OR" [.reg d, .reg r]
  | .ori d imm => line "ORI" [.reg d, .imm imm.toNat]
  | .or3 d r t => line "OR3" [.reg d, .reg r, .reg t]
  | .or3i d r imm => line "OR3I" [.reg d, .reg r, .imm imm.toNat]
  | .not d => line "NOT" [.reg d]
  | .add d r => line "ADD" [.reg d, .reg r]
  | .addi d imm => line "ADDI" [.reg d, .imm imm.toNat]
  | .add3 d r t => line "ADD3" [.reg d, .reg r, .reg t]
  | .add3i d r imm => line "ADD3I" [.reg d, .reg r, .imm imm.toNat]
  | .sub d r => line "SUB" [.reg d, .reg r]
  | .subi d imm => line "SUBI" [.reg d, .imm imm.toNat]
  | .sub3 d r t => line "SUB3" [.reg d, .reg r, .reg t]
  | .sub3i d r imm => line "SUB3I" [.reg d, .reg r, .imm imm.toNat]
  | .cmp d r => line "CMP" [.reg d, .reg r]
  | .cmpi d imm => line "CMPI" [.reg d, .imm imm.toNat]
  | .push r => line "PUSH" [.reg r]
  | .pop d => line "POP" [.reg d]
  | .jmp d imm => line "JMP" [.offset d imm.toNat]
  | .hlt => line "HLT" []

end Sys2Proof.Machine
end

