-- ==== Sys2Proof/Machine/AsmText.lean ====
section
/-! DEFINITION. The text form of assembly lines (R104): tokens, operands, comments, decimal and hexadecimal numbers.
What R104 does not say of it (spaces, blank lines, letter case, which of several errors is reported) is log entry 15. -/

namespace Sys2Proof.Machine

/-- A token of a line. -/
inductive AsmToken where
  | comma
  | hash
  | openBracket
  | closeBracket
  | reg (n : Nat)
  | num (n : Nat)
  | word (text : List Char)
deriving DecidableEq, Repr

/-- The value of a digit, hexadecimal digits in either case. -/
def digitValue (c : Char) : Option Nat :=
  if '0'.toNat ≤ c.toNat ∧ c.toNat ≤ '9'.toNat then some (c.toNat - '0'.toNat)
  else if 'a'.toNat ≤ c.toNat ∧ c.toNat ≤ 'f'.toNat then some (c.toNat - 'a'.toNat + 10)
  else if 'A'.toNat ≤ c.toNat ∧ c.toNat ≤ 'F'.toNat then some (c.toNat - 'A'.toNat + 10)
  else none

/-- The number that digits of a base spell after `acc`; none if one of them is no digit of the base. -/
def digitsValue (base acc : Nat) : List Char → Option Nat
  | [] => some acc
  | c :: rest =>
    match digitValue c with
    | none => none
    | some v => if v < base then digitsValue base (base * acc + v) rest else none

/-- A number: decimal, or hexadecimal after `0x` (R104). -/
def asmNumber : List Char → Option Nat
  | [] => none
  | '0' :: 'x' :: c :: rest => digitsValue 16 0 (c :: rest)
  | c :: rest => digitsValue 10 0 (c :: rest)

/-- The token a run of letters and digits is: a number, a register `R` and its number, or another word. Leading zeros
are read, in a register's number too: R07 is R7. R104 names R0 to R7 only: PRESUMED (log entry 15). -/
def wordToken (text : List Char) : AsmToken :=
  match asmNumber text, text with
  | some n, _ => .num n
  | none, 'R' :: c :: rest =>
    match digitsValue 10 0 (c :: rest) with
    | some n => .reg n
    | none => .word text
  | none, _ => .word text

/-- The token of the letters read so far, if there are any. -/
def flushWord (word : List Char) : List AsmToken := if word = [] then [] else [wordToken word]

/-- The tokens of a line; a comment starts with `;` and ends it (R104). `word` holds the letters read so far. -/
def tokensFrom (word : List Char) : List Char → List AsmToken
  | [] => flushWord word
  | ';' :: _ => flushWord word
  | ' ' :: rest => flushWord word ++ tokensFrom [] rest
  | '\t' :: rest => flushWord word ++ tokensFrom [] rest
  | ',' :: rest => flushWord word ++ .comma :: tokensFrom [] rest
  | '#' :: rest => flushWord word ++ .hash :: tokensFrom [] rest
  | '[' :: rest => flushWord word ++ .openBracket :: tokensFrom [] rest
  | ']' :: rest => flushWord word ++ .closeBracket :: tokensFrom [] rest
  | c :: rest => tokensFrom (word ++ [c]) rest

/-- The operand at the head of the tokens, and the tokens after it (R104). -/
def asmOperand : List AsmToken → Option (AsmOperand × List AsmToken)
  | .reg n :: rest => some (.reg n, rest)
  | .num n :: rest => some (.target n, rest)
  | .hash :: .num n :: rest => some (.imm n, rest)
  | .openBracket :: .reg b :: .closeBracket :: rest => some (.indirect b, rest)
  | .openBracket :: .reg b :: .comma :: .reg o :: .closeBracket :: rest => some (.indexed b o, rest)
  | .openBracket :: .reg b :: .comma :: .hash :: .num o :: .closeBracket :: rest => some (.offset b o, rest)
  | _ => none

/-- The operands of a line, separated by commas; `fuel` bounds their number. -/
def asmOperands : Nat → List AsmToken → Except AsmError (List AsmOperand)
  | 0, _ => .error .badOperands
  | _ + 1, [] => .error .missingOperand
  | fuel + 1, tokens =>
    match asmOperand tokens with
    | none => .error .badOperands
    | some (a, []) => .ok [a]
    | some (a, .comma :: rest) => (asmOperands fuel rest).map (a :: ·)
    | some (_, _) => .error .badOperands

/-- The mnemonic and operands of a line; none for a line with no token. The operands are read before the mnemonic is
looked up, so their error is reported first: DESIGN CHOICE (log entry 15). -/
def parseLine (line : List Char) : Except AsmError (Option AsmLine) :=
  match tokensFrom [] line with
  | [] => .ok none
  | [.word m] => .ok (some ⟨String.ofList m, []⟩)
  | .word m :: rest => (asmOperands rest.length rest).map fun ops => some ⟨String.ofList m, ops⟩
  | _ => .error (.unknownMnemonic (String.ofList line))

/-- The lines of a text. `line` holds the letters of the current line. -/
def linesFrom (line : List Char) : List Char → List (List Char)
  | [] => [line]
  | '\n' :: rest => line :: linesFrom [] rest
  | c :: rest => linesFrom (line ++ [c]) rest

/-- The words of text lines, or the number of the first offending line and its error (R105). R105 does not say which
error a line with several faults reports. Here an operand text that cannot be read comes before an unknown mnemonic, and
that before what `assembleForm` checks: DESIGN CHOICE (log entry 15). -/
def assembleLinesFrom (number : Nat) : List (List Char) → Except (Nat × AsmError) (List Word)
  | [] => .ok []
  | line :: rest =>
    match parseLine line with
    | .error e => .error (number, e)
    | .ok none => assembleLinesFrom (number + 1) rest
    | .ok (some l) =>
      match assembleLine l with
      | .error e => .error (number, e)
      | .ok i => (assembleLinesFrom (number + 1) rest).map (encode i :: ·)

/-- The assembler of R105 on mnemonic source text, its lines numbered from 1. -/
def assembleText (text : List Char) : Except (Nat × AsmError) (List Word) :=
  assembleLinesFrom 1 (linesFrom [] text)

/-- The text of an operand (R104), numbers in decimal. -/
def AsmOperand.text : AsmOperand → String
  | .reg n => "R" ++ toString n
  | .imm n => "#" ++ toString n
  | .target n => toString n
  | .indirect b => "[R" ++ toString b ++ "]"
  | .indexed b o => "[R" ++ toString b ++ ", R" ++ toString o ++ "]"
  | .offset b o => "[R" ++ toString b ++ ", #" ++ toString o ++ "]"

/-- The text of a line (R104). -/
def AsmLine.text (line : AsmLine) : String :=
  if line.operands = [] then line.mnemonic
  else line.mnemonic ++ " " ++ String.intercalate ", " (line.operands.map AsmOperand.text)

end Sys2Proof.Machine
end

