-- ==== Sys2Proof/Machine/HostInterface.lean ====
section
/-! DEFINITION. What the host can do and see: reset, program load, running to the end, the observer port and the
termination port (R215, R216, R230 to R233). -/

namespace Sys2Proof.Machine

/-- Reset of a machine: a fresh Machine State under the same parameters (R230). It applies in every state. R230 and R233
leave open whether the host may reset in the middle of a run: that it may is a DESIGN CHOICE (log entry 16). -/
def hostReset (s : State) : State := State.resetWith s.params

/-- Why the load interface refuses a program. It is not a STATUS value (R206). -/
inductive LoadError where
  /-- LoadError of R231: the program is longer than ROM_CAPACITY. -/
  | tooLong (length capacity : Nat)
  /-- The machine is past its first Fetch: the host cannot write a running machine (R231, R233, I24). -/
  | pastFirstFetch
deriving DecidableEq, Repr

/-- The time of the load interface: between reset and the first Fetch (R231). -/
def State.beforeFirstFetch (s : State) : Bool := s.fsm == .fetch && s.steps == 0 && s.status == .running

/-- The memory with a sequence of words written from address `a` up. -/
def Memory.writeFrom (m : Memory) (a : Nat) : List Word → Memory
  | [] => m
  | w :: rest => Memory.writeFrom (m.write a w) (a + 1) rest

/-- The program-load interface (R231). R231 and R232 do not say whether a second load before the first Fetch is accepted.
Here it is, and it writes its own words only, so a longer first program stays above the new ROM length: DESIGN CHOICE
(log entry 12). -/
def load (program : List Word) (s : State) : Except LoadError State :=
  if s.beforeFirstFetch = false then .error .pastFirstFetch
  else if s.params.romCapacity < program.length then .error (.tooLong program.length s.params.romCapacity)
  else .ok { s with mem := s.mem.writeFrom 0 program, romLen := program.length }

/-- The host's sequence before a run: parameters, reset, load (R232). -/
def boot (params : Config.Params) (program : List Word) : Except LoadError State :=
  load program (State.resetWith params)

/-- At most `k` steps, stopping where there is no step (R247, R248). -/
def runFor : Nat → State → State
  | 0, s => s
  | k + 1, s =>
    match step s with
    | .next t => runFor k t
    | .fault _ => s
    | .refused _ => s

/-- The snapshot the observer port emits in the cycle that starts here, if the cycle completes (R215). -/
def observed (s : State) : Option Snapshot := (cycle s).2

/-- The snapshots of at most `k` cycles, in order (R215, R217). -/
def trace : Nat → State → List Snapshot
  | 0, _ => []
  | k + 1, s =>
    (observed s).toList ++
      match step s with
      | .next t => trace k t
      | .fault _ => []
      | .refused _ => []

/-- The report of the termination port (R216): the STATUS code, the final snapshot with STEPS, and the fault record of a
fatal error. With the FSM state it shows all the state of R20, memory and RUN included (R218; log entry 18). -/
structure TerminationReport where
  code     : Nat
  fsm      : FsmState
  snapshot : MachineSnapshot
  record   : Option FaultRecord
deriving DecidableEq, Repr

/-- What the termination port reports: nothing before the run has ended (R216). -/
def terminationReport (s : State) : Option TerminationReport :=
  if s.fsm.terminal then some ⟨s.status.code, s.fsm, s.machineSnapshot, s.fault⟩ else none

end Sys2Proof.Machine
end

