-- ==== Sys2Proof/Machine/Phases.lean ====
section
/-! DEFINITION. The instruction-execution state machine state by state (R240 to R245). `Micro` is the Machine State
with what EXECUTE carries to FLAGUPDATE; `phase` is one state of the machine. That a cycle of phases is the step of
R247 is a statement of its own, and `step` does not use this file. -/

namespace Sys2Proof.Machine

/-- The Machine State with the result and the flag-write enable that EXECUTE hands to FLAGUPDATE (R243, R244). -/
structure Micro where
  state     : State
  result    : Word
  flagWrite : Bool
deriving DecidableEq, Repr

/-- FETCH (R241). -/
def phaseFetch (s : State) : State :=
  if s.params.stepBudget ≤ s.steps then s.outOfBudget else { s.fetched with fsm := .decode }

/-- DECODE (R242): an invalid word raises DecodeError(IR), any other goes to EXECUTE. -/
def phaseDecode (s : State) : State :=
  if (decodeWord s.ir).valid then { s with fsm := .execute } else s.raised (.decode s.ir)

/-- EXECUTE (R243): the form's rule except for its FLAGS write. The result and the flag-write enable go to
FLAGUPDATE; an error commits nothing and goes to FAULT. -/
def phaseExecute (m : Micro) : Micro :=
  let i := decodeWord m.state.ir
  match exec i m.state with
  | .next t =>
    if t.fsm = .fault then { m with state := t }
    else
      { state := { t with flags := m.state.flags, fsm := .flagUpdate }
        result := resultOf m.state i
        flagWrite := flagProducing i }
  | .fault _ => m
  | .refused _ => m

/-- FLAGUPDATE (R244). -/
def phaseFlagUpdate (m : Micro) : State :=
  if m.flagWrite then { m.state.flagged m.result with fsm := .continueOrHalt }
  else { m.state with fsm := .continueOrHalt }

/-- One state of the state machine; the terminal states keep all state (R248). -/
def phase (m : Micro) : Micro :=
  match m.state.fsm with
  | .fetch => { m with state := phaseFetch m.state }
  | .decode => { m with state := phaseDecode m.state }
  | .execute => phaseExecute m
  | .flagUpdate => { m with state := phaseFlagUpdate m }
  | .continueOrHalt => { m with state := m.state.continued }
  | .halted => m
  | .budget => m
  | .fault => m

/-- The snapshot the observer port emits in a state of the machine: in CONTINUE only (R215, R245). -/
def phaseEmits (m : Micro) : Option Snapshot :=
  if m.state.fsm = .continueOrHalt then some m.state.snapshot else none

/-- `k` states of the state machine, one after the other. -/
def phases : Nat → Micro → Micro
  | 0, m => m
  | k + 1, m => phases k (phase m)

/-- The states that may follow a state of the machine: the `next` column of R240. A terminal state stays. -/
def FsmState.successors : FsmState → List FsmState
  | .fetch => [.decode, .budget]
  | .decode => [.execute, .fault]
  | .execute => [.flagUpdate, .fault]
  | .flagUpdate => [.continueOrHalt]
  | .continueOrHalt => [.fetch, .halted]
  | .halted => [.halted]
  | .budget => [.budget]
  | .fault => [.fault]

end Sys2Proof.Machine
end

