-- ==== Sys2Proof/Machine/Ports.lean ====
section
/-! DEFINITION. The core's inner ports as the spec describes them: the register file's read and write ports (R24) and
the memory controller's transaction port (R74). The meanings do not go through them; statements say that they agree. -/

namespace Sys2Proof.Machine

/-- The three read ports: each returns the value of the register its index names, as it stood before the instruction
(R24). -/
def State.readPorts (s : State) (p : PortIndices) : Word × Word × Word := (s.reg p.ra, s.reg p.rb, s.reg p.rc)

/-- The write port: index, value and enable (R24). -/
def State.writePort (s : State) (index : Reg) (value : Word) (enable : Bool) : State :=
  if enable then s.setReg index value else s

/-- A transaction of the memory controller's port (R74). -/
inductive Transaction where
  | read (addr : Nat)
  | write (addr : Nat) (data : Word)
deriving DecidableEq, Repr

/-- What a transaction returns, and the state after it (R60, R61, R74). -/
def State.transact (s : State) : Transaction → Except CoreError (Option Word × State)
  | .read a => (memRead s a).map fun v => (some v, s)
  | .write a v => (memWrite s a v).map fun t => (none, t)

/-- The read transaction of an address operand; none where the operand raises an error. -/
def readAt : Except CoreError Nat → Option Transaction
  | .ok a => some (.read a)
  | .error _ => none

/-- The write transaction of an address operand; none where the operand raises an error. -/
def writeAt (v : Word) : Except CoreError Nat → Option Transaction
  | .ok a => some (.write a v)
  | .error _ => none

/-- The fetch read of the Fetch state (R74). -/
def State.fetchTransaction (s : State) : Transaction := .read s.pc.toNat

/-- The data transaction of the Execute state, at most one: a read for LD, LDX, LDD, POP and JMP, a write for ST, STX,
STD and PUSH (R74). None where the form makes no access, or raises its error before it. -/
def dataTransaction (s : State) : Instr → Option Transaction
  | .ld _ r => readAt (addrIndirect s r)
  | .ldx _ r t => readAt (addrIndexed s r t)
  | .ldd _ r imm => readAt (addrOffset s r imm)
  | .st r d => writeAt (s.reg r) (addrIndirect s d)
  | .stx r d t => writeAt (s.reg r) (addrIndexed s d t)
  | .std r d imm => writeAt (s.reg r) (addrOffset s d imm)
  | .push r => writeAt (s.reg r) (addrPush s)
  | .pop _ => readAt (addrPop s)
  | .jmp d imm => readAt (addrOffset s d imm)
  | .b _ | .beq _ | .bne _ | .bgt _ | .blt _ | .ldi _ _ | .reserved _ | .mov _ _ | .movi _ _ => none
  | .and _ _ | .andi _ _ | .and3 _ _ _ | .and3i _ _ _ => none
  | .or _ _ | .ori _ _ | .or3 _ _ _ | .or3i _ _ _ | .not _ => none
  | .add _ _ | .addi _ _ | .add3 _ _ _ | .add3i _ _ _ => none
  | .sub _ _ | .subi _ _ | .sub3 _ _ _ | .sub3i _ _ _ => none
  | .cmp _ _ | .cmpi _ _ | .hlt => none

/-- The next-PC source a form selects (R28). For JMP it carries the word at the effective address, and for a form
that raises an error there is none. -/
def pcSourceOf (s : State) : Instr → Option PcSource
  | .b imm => some (.imm12 imm)
  | .beq imm => some (if s.flags = .z then .imm11 imm else .inc)
  | .bne imm => some (if s.flags = .z then .inc else .imm11 imm)
  | .bgt imm => some (if s.flags = .p then .imm11 imm else .inc)
  | .blt imm => some (if s.flags = .n then .imm11 imm else .inc)
  | .jmp d imm =>
    match addrOffset s d imm with
    | .ok a => some (.mem (s.word a))
    | .error _ => none
  | .reserved _ => none
  | .ld _ _ | .ldx _ _ _ | .ldd _ _ _ | .ldi _ _ | .st _ _ | .stx _ _ _ | .std _ _ _ => some .inc
  | .mov _ _ | .movi _ _ => some .inc
  | .and _ _ | .andi _ _ | .and3 _ _ _ | .and3i _ _ _ => some .inc
  | .or _ _ | .ori _ _ | .or3 _ _ _ | .or3i _ _ _ | .not _ => some .inc
  | .add _ _ | .addi _ _ | .add3 _ _ _ | .add3i _ _ _ => some .inc
  | .sub _ _ | .subi _ _ | .sub3 _ _ _ | .sub3i _ _ _ => some .inc
  | .cmp _ _ | .cmpi _ _ | .push _ | .pop _ | .hlt => some .inc

end Sys2Proof.Machine
end

