-- ==== Sys2Proof/Safety.lean ====
section
/-! DEFINITION. The terms claims are made in: what two states share, the effect of each shape of instruction with its
frame, the fault entry, and the invariant of every reachable state. -/

namespace Sys2Proof.Machine

/-! What two states share. -/

/-- Every general register is unchanged. -/
def SameRegs (s t : State) : Prop := ∀ q, t.reg q = s.reg q

/-- Every general register but `d` is unchanged. -/
def SameRegsExcept (d : Reg) (s t : State) : Prop := ∀ q, q ≠ d → t.reg q = s.reg q

/-- Every memory word reads as before. -/
def SameMemory (s t : State) : Prop := ∀ a, t.word a = s.word a

/-- Every memory word but the one at `a` reads as before. -/
def SameMemoryExcept (a : Nat) (s t : State) : Prop := ∀ b, b ≠ a → t.word b = s.word b

/-- What no form of the ISA writes unless it faults: LR, IR, STEPS, the FSM state, STATUS, the fault record, the ROM
length and the host's parameters. (IR, STEPS, the FSM state and STATUS are the cycle's to write, R241 to R246.) -/
structure SameBookkeeping (s t : State) : Prop where
  lr     : t.lr = s.lr
  ir     : t.ir = s.ir
  steps  : t.steps = s.steps
  fsm    : t.fsm = s.fsm
  status : t.status = s.status
  fault  : t.fault = s.fault
  romLen : t.romLen = s.romLen
  params : t.params = s.params

/-! The effect of each shape of instruction, frame included. -/

/-- A flag-producing form that writes result `r` to register `d`: the register, FLAGS = flagsOf(r), PC + 1, and
nothing else. -/
structure ResultEffect (d : Reg) (r : Word) (s t : State) : Prop where
  dest     : t.reg d = r
  regs     : SameRegsExcept d s t
  flags    : t.flags = flagsOf s.params.flagMode r
  pc       : t.pc = s.pc + 1
  sp       : t.sp = s.sp
  run      : t.run = s.run
  memory   : SameMemory s t
  bookkeep : SameBookkeeping s t

/-- A form that derives FLAGS from `r` and stores nothing else. -/
structure CompareEffect (r : Word) (s t : State) : Prop where
  regs     : SameRegs s t
  flags    : t.flags = flagsOf s.params.flagMode r
  pc       : t.pc = s.pc + 1
  sp       : t.sp = s.sp
  run      : t.run = s.run
  memory   : SameMemory s t
  bookkeep : SameBookkeeping s t

/-- A form that writes `v` to register `d` and `sp'` to SP, leaving FLAGS and memory alone. -/
structure LoadEffect (d : Reg) (v sp' : Word) (s t : State) : Prop where
  dest     : t.reg d = v
  regs     : SameRegsExcept d s t
  flags    : t.flags = s.flags
  pc       : t.pc = s.pc + 1
  sp       : t.sp = sp'
  run      : t.run = s.run
  memory   : SameMemory s t
  bookkeep : SameBookkeeping s t

/-- A form that stores `v` at word address `a` and writes `sp'` to SP, leaving the registers and FLAGS alone. -/
structure StoreEffect (a : Nat) (v sp' : Word) (s t : State) : Prop where
  stored   : t.word a = v
  memory   : SameMemoryExcept a s t
  regs     : SameRegs s t
  flags    : t.flags = s.flags
  pc       : t.pc = s.pc + 1
  sp       : t.sp = sp'
  run      : t.run = s.run
  bookkeep : SameBookkeeping s t

/-- A form that writes PC, and RUN as given, and nothing else. -/
structure JumpEffect (target : Word) (run' : Bool) (s t : State) : Prop where
  pc       : t.pc = target
  run      : t.run = run'
  regs     : SameRegs s t
  flags    : t.flags = s.flags
  sp       : t.sp = s.sp
  memory   : SameMemory s t
  bookkeep : SameBookkeeping s t

/-- The entry of a fatal error (R200, R204, R209, R212): STATUS, the FSM state FAULT and the fault record; nothing
else changes. -/
structure FaultEffect (code : Status) (cause : Option StackCause) (info : FaultInfo) (s t : State) : Prop where
  status : t.status = code
  fsm    : t.fsm = .fault
  record : t.fault = some ⟨code, cause, info, s.pc, s.ir,
    ⟨⟨s.pc, s.regs, s.sp, s.lr, s.flags, s.ir⟩, s.run, s.steps, s.mem⟩⟩
  pc     : t.pc = s.pc
  regs   : SameRegs s t
  sp     : t.sp = s.sp
  lr     : t.lr = s.lr
  flags  : t.flags = s.flags
  run    : t.run = s.run
  ir     : t.ir = s.ir
  steps  : t.steps = s.steps
  memory : SameMemory s t
  romLen : t.romLen = s.romLen
  params : t.params = s.params

/-- What a program can observe of two states: the registers, SP, PC, RUN, memory, and whether and how the run has
ended. FLAGS, LR and IR are left out, for statements that vary them. -/
structure SameOutcome (t u : State) : Prop where
  regs   : SameRegs t u
  sp     : u.sp = t.sp
  pc     : u.pc = t.pc
  run    : u.run = t.run
  memory : SameMemory t u
  fsm    : u.fsm = t.fsm
  status : u.status = t.status
  steps  : u.steps = t.steps

/-! What the instructions that read memory make of one word. -/

/-- Every form that reads the word at `a`, and the fetch there, gives `v` in state `u`: LD, LDX, LDD and POP load it, JMP
goes to it, and with PC at `a` it is the word fetched into IR. -/
structure ReadsAs (a : Nat) (v : Word) (u : State) : Prop where
  ld    : ∀ d r, addrIndirect u r = .ok a → exec (.ld d r) u = .next ((u.setReg d v).sequence .inc)
  ldx   : ∀ d r q, addrIndexed u r q = .ok a → exec (.ldx d r q) u = .next ((u.setReg d v).sequence .inc)
  ldd   : ∀ d r imm, addrOffset u r imm = .ok a → exec (.ldd d r imm) u = .next ((u.setReg d v).sequence .inc)
  pop   : ∀ d, addrPop u = .ok a → exec (.pop d) u = .next (((u.setReg d v).setSp (u.sp + 1)).sequence .inc)
  jmp   : ∀ d imm, addrOffset u d imm = .ok a → exec (.jmp d imm) u = .next (u.sequence (.mem v))
  fetch : u.pc.toNat = a → u.fetchWord = v ∧ u.fetched.ir = v

/-- The store `i` of `v` at `a` is performed, and from then on every state whose word at `a` is still the one stored
reads it as `v`. -/
def StoredAndSeen (i : Instr) (a : Nat) (v sp' : Word) (s : State) : Prop :=
  ∃ t, exec i s = .next t ∧ StoreEffect a v sp' s t ∧ ∀ u : State, u.word a = t.word a → ReadsAs a v u

/-! Runs of instructions without the cycle around them. -/

/-- The instructions of a list executed in order. -/
def execAll : List Instr → State → Result
  | [], s => .next s
  | i :: rest, s =>
    match exec i s with
    | .next t => execAll rest t
    | .fault f => .fault f
    | .refused r => .refused r

/-- PUSH and POP. -/
def isStackOp : Instr → Bool
  | .push _ | .pop _ => true
  | _ => false

/-! The invariant. -/

/-- What holds of every state a run reaches between cycles (R25, R26, R35 to R40, R203, R212, R240, R246). -/
structure Sound (s : State) : Prop where
  /-- The host's parameters meet R8. -/
  params  : s.params.WellFormed
  /-- `STACK_FLOOR <= SP <= STACK_BASE` (R25). -/
  stack   : s.params.stackFloor ≤ s.sp ∧ s.sp ≤ Config.stackBase
  /-- Memory is in canonical form. -/
  memory  : s.mem.wf
  /-- LR keeps its reset value (R26). -/
  lr      : s.lr = 0
  /-- The program fits the ROM (R231). -/
  rom     : s.romLen ≤ s.params.romCapacity
  /-- No more cycles have completed than the budget allows (R246). -/
  steps   : s.steps ≤ s.params.stepBudget
  /-- STATUS is RUNNING exactly at FETCH, and each other value goes with its terminal state (R203, R240, R245). -/
  running : s.status = .running ↔ s.fsm = .fetch
  halted  : s.status = .halt ↔ s.fsm = .halted
  budget  : s.status = .budgetExceeded ↔ s.fsm = .budget
  faulted : (s.status = .decodeError ∨ s.status = .addressError ∨ s.status = .stackError) ↔ s.fsm = .fault
  /-- RUN is 0 exactly in HALTED (R35, R204, R245). -/
  run     : s.run = false ↔ s.fsm = .halted
  /-- The fault record is filled exactly in FAULT, with the state at the point of failure (R204, R212). -/
  record  : s.fsm = .fault ↔ s.fault.isSome = true
  agrees  : ∀ r, s.fault = some r → r.status = s.status ∧ r.pc = s.pc ∧ r.ir = s.ir ∧
    r.snapshot = s.machineSnapshot

/-- A run of at most `k` cycles in which no fatal error occurs. -/
def FaultFree (k : Nat) (s : State) : Prop := ∀ j ≤ k, (runFor j s).fsm ≠ .fault

end Sys2Proof.Machine
end

