-- ==== Sys2Proof/Certificates/Slice0/Obligations.lean ====
section
/-! DEFINITION. The statements for the provers. `field lo v` is the value `v` placed at bit `lo` of a word; in a decoding
clause the registers and immediates of a form stand at the bits of its encoding, and `x`, `y` are its ignored bits. -/

open Sys2Proof Sys2Proof.Machine

/-- R40. After reset, under any parameters of the host, the state holds the values R40 lists. Of them R40 names three as the spec's decisions: IR (D28), STEPS (D37) and SP = 0xFFFF (D20). -/
def Obligations.ResetGivesR40Values : Prop :=
  ∀ p : Config.Params,
    (∀ r, (State.resetWith p).reg r = 0) ∧ (State.resetWith p).pc = 0 ∧
    (State.resetWith p).sp = Config.stackBase ∧ Config.stackBase = 0xFFFF#16 ∧
    (State.resetWith p).flags = .z ∧ (State.resetWith p).run = true ∧ (State.resetWith p).fsm = .fetch ∧
    (State.resetWith p).status = .running ∧ (State.resetWith p).lr = 0 ∧ (State.resetWith p).ir = 0 ∧
    (State.resetWith p).steps = 0

/-- The memory contents after reset and program load. That a word outside the program reads 0x0000 is the spec's decision D18 (log entry 4), on which a claim about a program should not rest (I1). -/
def Obligations.MemoryAfterResetAndLoad : Prop :=
  ∀ (p : Config.Params) (program : List Word) (s : State), p.WellFormed → boot p program = .ok s →
    ∀ a : Nat, s.word a = (if h : a < program.length then program[a] else 0)

/-- The program-load interface of R231. A failed load answers no state, so memory is not changed and the core does not start. What counts as before the first Fetch, and the refusal outside it, is log entry 12, and so is that a second load is accepted and leaves the words above its own as they stand, a DESIGN CHOICE where R231 and R232 are silent; that the empty run fetches 0x0000 rests on log entry 4. -/
def Obligations.LoadInterface : Prop :=
  (∀ (program : List Word) (s : State), s.beforeFirstFetch = true → s.params.romCapacity < program.length →
    load program s = .error (.tooLong program.length s.params.romCapacity)) ∧
  (∀ (program : List Word) (s : State), s.beforeFirstFetch = true → program.length ≤ s.params.romCapacity →
    ∃ t, load program s = .ok t ∧ (∀ a (h : a < program.length), t.word a = program[a]) ∧
      (∀ a, program.length ≤ a → t.word a = s.word a) ∧ t.romLen = program.length ∧
      SameRegs s t ∧ t.sp = s.sp ∧ t.lr = s.lr ∧ t.pc = s.pc ∧ t.flags = s.flags ∧ t.run = s.run ∧ t.ir = s.ir ∧
      t.steps = s.steps ∧ t.fsm = s.fsm ∧ t.status = s.status ∧ t.fault = s.fault ∧ t.params = s.params) ∧
  (∀ (program : List Word) (s : State), s.beforeFirstFetch = false → load program s = .error .pastFirstFetch) ∧
  (∀ p : Config.Params, ∃ s, boot p [] = .ok s ∧ s.fetchWord = 0 ∧ decodeWord s.fetchWord = .b 0 ∧
    ∀ k, p.stepBudget < k → (runFor k s).status = .budgetExceeded ∧ (runFor k s).pc = 0)

/-- Reset builds a fresh Machine State, and is the way out of a terminal state (R230). That it applies to a running machine too is the model's choice, a DESIGN CHOICE where R230 and R233 leave the point open, and that the parameters survive it is its reading of R232, DEDUCED: both log entry 16. That every word reads 0 is the spec's decision D18 (log entry 4). -/
def Obligations.HostResetLeavesTerminalStates : Prop :=
  ∀ s : State, hostReset s = State.resetWith s.params ∧ (hostReset s).fsm = .fetch ∧
    (hostReset s).status = .running ∧ (hostReset s).fault = none ∧ ∀ a, (hostReset s).word a = 0

/-- The words of the worked example, whose bits R93 pins, and one example word of each other family. -/
def Obligations.PinnedWordsDecode : Prop :=
  decodeWord 0x5801#16 = .movi 0 1 ∧ decodeWord 0x590F#16 = .movi 1 15 ∧ decodeWord 0x4080#16 = .st 1 0 ∧
  decodeWord 0x3100#16 = .ld 2 0 ∧ decodeWord 0x6C28#16 = .and3 4 1 2 ∧ decodeWord 0xF000#16 = .hlt ∧
  decodeWord 0x0123#16 = .b 0x123 ∧ decodeWord 0x1A00#16 = .bne 0x200 ∧ decodeWord 0x2840#16 = .blt 0x40 ∧
  decodeWord 0x78DC#16 = .or3 0 6 7 ∧ decodeWord 0x8500#16 = .not 5 ∧ decodeWord 0x91C9#16 = .addi 1 100 ∧
  decodeWord 0xA825#16 = .sub3i 0 1 2 ∧ decodeWord 0xB140#16 = .cmp 1 2 ∧ decodeWord 0xC300#16 = .push 3 ∧
  decodeWord 0xD400#16 = .pop 4 ∧ decodeWord 0xE401#16 = .jmp 2 1 ∧ decodeWord 0x4C00#16 = .reserved 0

/-- The encoder and the decoder are inverse: the round trip of R107, which the spec marks as derived. The first clause holds for the reserved encoding too; the second is about the words of assembled forms. -/
def Obligations.DecodeEncodeRoundTrip : Prop :=
  (∀ i : Instr, decodeWord (encode i) = i) ∧
  (∀ (w : Word) (row : FormRow), row ∈ formTable → row.form = (decodeWord w).form → (decodeWord w).valid = true →
    encode (decodeWord w) = w &&& ~~~ row.ignored)

/-- R108. The table is complete and unambiguous, and the decoder follows it. -/
def Obligations.MatchMaskTableSelectsOneRow : Prop :=
  formTable.length = 38 ∧
  ∀ w : Word, ∃ row ∈ formTable, formTable.filter (fun r => r.selects w) = [row] ∧ row.form = (decodeWord w).form ∧
    formOf w = row.form

/-- R101. The bits marked x are ignored, the assembler writes them as 0, and no encoding but the reserved pattern is illegal. -/
def Obligations.IgnoredBitsNeverMatter : Prop :=
  (∀ (w w' : Word) (row : FormRow), row ∈ formTable → row.form = (decodeWord w).form → (decodeWord w).valid = true →
    w &&& ~~~ row.ignored = w' &&& ~~~ row.ignored → decodeWord w' = decodeWord w) ∧
  (∀ (i : Instr) (row : FormRow), row ∈ formTable → row.form = i.form → i.valid = true →
    encode i &&& row.ignored = 0) ∧
  (∀ w : Word, (decodeWord w).valid = false ↔ w &&& 0xFC00#16 = 0x4C00#16)

/-- R95. Every immediate is zero-extended to 16 bits with no scaling. -/
def Obligations.ImmediatesAreZeroExtended : Prop :=
  ∀ w : Word,
    (decodeRecord w).imm16.toNat =
      (match formOf w with
       | .b => w.toNat % 4096
       | .beq | .bne | .bgt | .blt => w.toNat % 2048
       | .jmp => w.toNat % 512
       | .movi | .cmpi => w.toNat % 256
       | .ldi => w.toNat % 128
       | .ldd | .std => w.toNat % 16
       | .andi | .ori | .addi | .subi => w.toNat / 2 % 128
       | .and3i | .or3i | .add3i | .sub3i => w.toNat / 2 % 16
       | .ld | .ldx | .st | .stx | .reserved | .mov | .cmp | .and | .and3 | .or | .or3 | .not => 0
       | .add | .add3 | .sub | .sub3 | .push | .pop | .hlt => 0)

/-- The ports of R97 agree with the operand roles of R96 and the reads and writes of R23. The indices R97 does not name are free values (log entry 14), and nothing is said of them. -/
def Obligations.RegisterPortsCarryTheOperands : Prop :=
  ∀ w : Word,
    (∀ r ∈ (decodeWord w).reads, r = (portsOf w).ra ∨ r = (portsOf w).rb ∨ r = (portsOf w).rc) ∧
    (∀ r, (decodeWord w).writes = some r → (portsOf w).write = r ∧ (portsOf w).writeEnable = true) ∧
    ((decodeWord w).writes = none → (portsOf w).writeEnable = false) ∧
    (∀ (s : State), ∀ r ∈ (decodeWord w).reads, s.reg r = (s.readPorts (portsOf w)).1 ∨
      s.reg r = (s.readPorts (portsOf w)).2.1 ∨ s.reg r = (s.readPorts (portsOf w)).2.2) ∧
    (match (formOf w).format with
     | .fm => (portsOf w).ra = (slice 7 3 w).toFin ∧ (portsOf w).rb = (slice 4 3 w).toFin ∧
         (portsOf w).rc = (slice 1 3 w).toFin
     | .fa | .fe | .fr => (portsOf w).ra = (slice 8 3 w).toFin ∧ (portsOf w).rb = (slice 5 3 w).toFin ∧
         (portsOf w).rc = (slice 2 3 w).toFin ∧ (portsOf w).write = (slice 8 3 w).toFin
     | .fj => (portsOf w).ra = (slice 9 3 w).toFin
     | .fb | .fc | .fn => True)

/-- The assembler of R104 to R106, over tokens. -/
def Obligations.AssemblerAcceptsExactlyTheSyntax : Prop :=
  (∀ i : Instr, i.valid = true → ∃ line, disassemble i = some line ∧ assembleLine line = .ok i) ∧
  (∀ (line : AsmLine) (i : Instr), assembleLine line = .ok i → i.valid = true ∧ disassemble i = some line)

/-- R60 and R61. The controller's read and write with their guard, which no address of the core reaches. -/
def Obligations.ControllerReadsAndWrites : Prop :=
  (∀ (s : State) (a : Nat), Config.memWords ≤ a →
    memRead s a = .error (.address a) ∧ ∀ v, memWrite s a v = .error (.address a)) ∧
  (∀ (s : State) (a : Nat), a < Config.memWords → memRead s a = .ok (s.word a)) ∧
  (∀ (s : State) (a : Nat) (v : Word), a < Config.memWords →
    ∃ t, memWrite s a v = .ok t ∧ t.word a = v ∧ SameMemoryExcept a s t ∧ t = { s with mem := t.mem }) ∧
  (∀ (mode : Config.EaOverflow) (base off : Word) (a : Nat), effectiveAddress mode base off = .ok a →
    a < Config.memWords) ∧
  (∀ w : Word, w.toNat < Config.memWords)

/-- The function EA of R64; which forms use it is said by the statements about the forms. -/
def Obligations.EffectiveAddressValue : Prop :=
  ∀ base off : Word,
    (∀ mode, base.toNat + off.toNat ≤ 0xFFFF → effectiveAddress mode base off = .ok (base.toNat + off.toNat)) ∧
    (0xFFFF < base.toNat + off.toNat →
      effectiveAddress .wrap base off = .ok (base.toNat + off.toNat - 65536) ∧
      effectiveAddress .fault base off = .error (.address (base.toNat + off.toNat))) ∧
    effectiveAddress .wrap base off = .ok (base + off).toNat

/-- R67. Stores into ROM are performed. That fetch sees them is also the coherence of section 4 of 20_memory.md (R78, which the spec marks as derived). A PUSH into ROM needs a ROM length above STACK_FLOOR, which R8 keeps a run from; the clause holds there too. -/
def Obligations.StoresIntoRomArePerformedAndFetched : Prop :=
  ∀ (s : State) (r : Reg) (a : Nat), s.region a = .rom →
    (∀ d, addrIndirect s d = .ok a → StoredAndSeen (.st r d) a (s.reg r) s.sp s) ∧
    (∀ d q, addrIndexed s d q = .ok a → StoredAndSeen (.stx r d q) a (s.reg r) s.sp s) ∧
    (∀ d imm, addrOffset s d imm = .ok a → StoredAndSeen (.std r d imm) a (s.reg r) s.sp s) ∧
    (addrPush s = .ok a → StoredAndSeen (.push r) a (s.reg r) (s.sp - 1) s)

/-- The data transaction of R74 is all an instruction does to memory. -/
def Obligations.OnlyTheDataTransactionTouchesMemory : Prop :=
  ∀ (i : Instr) (s t : State), exec i s = .next t →
    (∀ a v, dataTransaction s i = some (.write a v) → a < Config.memWords ∧ t.word a = v ∧ SameMemoryExcept a s t) ∧
    ((∀ a v, dataTransaction s i ≠ some (.write a v)) → SameMemory s t)

/-- R140. B with its encoding and frame. The word 0x0000 is B 0. -/
def Obligations.BranchGoesToItsImmediate : Prop :=
  (∀ imm : BitVec 12, decodeWord (0x0000#16 ||| field 0 imm) = .b imm) ∧ decodeWord 0x0000#16 = .b 0 ∧
  ∀ (s : State) (imm : BitVec 12),
    ∃ t, exec (.b imm) s = .next t ∧ JumpEffect (imm.setWidth 16) s.run s t ∧ t.pc.toNat < 0x1000

/-- R141 to R144. The conditional branches with their encodings and frames. -/
def Obligations.ConditionalBranchesTestFlags : Prop :=
  (∀ imm : BitVec 11,
    decodeWord (0x1000#16 ||| field 0 imm) = .beq imm ∧ decodeWord (0x1800#16 ||| field 0 imm) = .bne imm ∧
    decodeWord (0x2000#16 ||| field 0 imm) = .bgt imm ∧ decodeWord (0x2800#16 ||| field 0 imm) = .blt imm) ∧
  ∀ (s : State) (imm : BitVec 11),
    (∃ t, exec (.beq imm) s = .next t ∧
      JumpEffect (if s.flags = .z then imm.setWidth 16 else s.pc + 1) s.run s t) ∧
    (∃ t, exec (.bne imm) s = .next t ∧
      JumpEffect (if s.flags ≠ .z then imm.setWidth 16 else s.pc + 1) s.run s t) ∧
    (∃ t, exec (.bgt imm) s = .next t ∧
      JumpEffect (if s.flags = .p then imm.setWidth 16 else s.pc + 1) s.run s t) ∧
    (∃ t, exec (.blt imm) s = .next t ∧
      JumpEffect (if s.flags = .n then imm.setWidth 16 else s.pc + 1) s.run s t)

/-- The exclusion R145 derives from R141 to R144 (the spec marks it as derived). Read off the next PC, for a target that differs from PC + 1. -/
def Obligations.BranchConditionsExclude : Prop :=
  ∀ (s : State) (imm : BitVec 11), (imm.setWidth 16 : Word) ≠ s.pc + 1 →
    ∃ eq ne gt lt : State, exec (.beq imm) s = .next eq ∧ exec (.bne imm) s = .next ne ∧
      exec (.bgt imm) s = .next gt ∧ exec (.blt imm) s = .next lt ∧
      (eq.pc = imm.setWidth 16 ↔ ne.pc ≠ imm.setWidth 16) ∧
      ¬ (gt.pc = imm.setWidth 16 ∧ lt.pc = imm.setWidth 16) ∧
      (s.flags = .z → gt.pc = s.pc + 1 ∧ lt.pc = s.pc + 1)

/-- R150. LD with its encoding and frame. -/
def Obligations.LoadIndirect : Prop :=
  (∀ (d s : BitVec 3) (x : BitVec 4),
    decodeWord (0x3000#16 ||| field 7 d ||| field 4 s ||| field 0 x) = .ld d.toFin s.toFin) ∧
  ∀ (s : State) (d r : Reg),
    ∃ t, exec (.ld d r) s = .next t ∧ LoadEffect d (s.word (s.reg r).toNat) s.sp s t

/-- R151 and R152. LDX and LDD with their encodings, frames and the AddressError of R64. -/
def Obligations.LoadIndexedAndOffset : Prop :=
  (∀ (d s t : BitVec 3) (x : BitVec 1),
    decodeWord (0x3400#16 ||| field 7 d ||| field 4 s ||| field 1 t ||| field 0 x) = .ldx d.toFin s.toFin t.toFin) ∧
  (∀ (d s : BitVec 3) (imm : BitVec 4),
    decodeWord (0x3800#16 ||| field 7 d ||| field 4 s ||| field 0 imm) = .ldd d.toFin s.toFin imm) ∧
  (∀ (s : State) (d r q : Reg),
    ((s.reg r).toNat + (s.reg q).toNat ≤ 0xFFFF ∨ s.params.eaOverflow = .wrap →
      ∃ t, exec (.ldx d r q) s = .next t ∧ LoadEffect d (s.word (s.reg r + s.reg q).toNat) s.sp s t) ∧
    (0xFFFF < (s.reg r).toNat + (s.reg q).toNat → s.params.eaOverflow = .fault →
      ∃ t, exec (.ldx d r q) s = .next t ∧
        FaultEffect .addressError none (.address ((s.reg r).toNat + (s.reg q).toNat)) s t)) ∧
  (∀ (s : State) (d r : Reg) (imm : BitVec 4),
    ((s.reg r).toNat + imm.toNat ≤ 0xFFFF ∨ s.params.eaOverflow = .wrap →
      ∃ t, exec (.ldd d r imm) s = .next t ∧ LoadEffect d (s.word (s.reg r + imm.setWidth 16).toNat) s.sp s t) ∧
    (0xFFFF < (s.reg r).toNat + imm.toNat → s.params.eaOverflow = .fault →
      ∃ t, exec (.ldd d r imm) s = .next t ∧
        FaultEffect .addressError none (.address ((s.reg r).toNat + imm.toNat)) s t))

/-- R153. LDI with its encoding and frame. -/
def Obligations.LoadImmediateKeepsFlags : Prop :=
  (∀ (d : BitVec 3) (imm : BitVec 7), decodeWord (0x3C00#16 ||| field 7 d ||| field 0 imm) = .ldi d.toFin imm) ∧
  ∀ (s : State) (d : Reg) (imm : BitVec 7),
    dataTransaction s (.ldi d imm) = none ∧
    ∃ t, exec (.ldi d imm) s = .next t ∧ LoadEffect d (imm.setWidth 16) s.sp s t ∧ (t.reg d).toNat ≤ 127

/-- R154. ST with its encoding and frame; the address stored to is x[d]. -/
def Obligations.StoreIndirect : Prop :=
  (∀ (s d : BitVec 3) (x : BitVec 4),
    decodeWord (0x4000#16 ||| field 7 s ||| field 4 d ||| field 0 x) = .st s.toFin d.toFin) ∧
  ∀ (s : State) (r d : Reg),
    ∃ t, exec (.st r d) s = .next t ∧ StoreEffect (s.reg d).toNat (s.reg r) s.sp s t

/-- R155 and R156. STX and STD with their encodings, frames and the AddressError of R64. -/
def Obligations.StoreIndexedAndOffset : Prop :=
  (∀ (s d t : BitVec 3) (x : BitVec 1),
    decodeWord (0x4400#16 ||| field 7 s ||| field 4 d ||| field 1 t ||| field 0 x) = .stx s.toFin d.toFin t.toFin) ∧
  (∀ (s d : BitVec 3) (imm : BitVec 4),
    decodeWord (0x4800#16 ||| field 7 s ||| field 4 d ||| field 0 imm) = .std s.toFin d.toFin imm) ∧
  (∀ (s : State) (r d q : Reg),
    ((s.reg d).toNat + (s.reg q).toNat ≤ 0xFFFF ∨ s.params.eaOverflow = .wrap →
      ∃ a t, effectiveAddress s.params.eaOverflow (s.reg d) (s.reg q) = .ok a ∧ a = (s.reg d + s.reg q).toNat ∧
        exec (.stx r d q) s = .next t ∧ StoreEffect a (s.reg r) s.sp s t) ∧
    (0xFFFF < (s.reg d).toNat + (s.reg q).toNat → s.params.eaOverflow = .fault →
      ∃ t, exec (.stx r d q) s = .next t ∧
        FaultEffect .addressError none (.address ((s.reg d).toNat + (s.reg q).toNat)) s t)) ∧
  (∀ (s : State) (r d : Reg) (imm : BitVec 4),
    ((s.reg d).toNat + imm.toNat ≤ 0xFFFF ∨ s.params.eaOverflow = .wrap →
      ∃ a t, effectiveAddress s.params.eaOverflow (s.reg d) (imm.setWidth 16) = .ok a ∧
        a = (s.reg d + imm.setWidth 16).toNat ∧
        exec (.std r d imm) s = .next t ∧ StoreEffect a (s.reg r) s.sp s t) ∧
    (0xFFFF < (s.reg d).toNat + imm.toNat → s.params.eaOverflow = .fault →
      ∃ t, exec (.std r d imm) s = .next t ∧
        FaultEffect .addressError none (.address ((s.reg d).toNat + imm.toNat)) s t))

/-- R100 and R157. The reserved encoding. -/
def Obligations.ReservedStoreModeRaisesDecodeError : Prop :=
  (∀ w : Word, (decodeRecord w).valid = false ↔ w &&& 0xFC00#16 = 0x4C00#16) ∧
  (∀ low : BitVec 10, decodeWord (0x4C00#16 ||| field 0 low) = .reserved low) ∧
  (∀ (s : State) (low : BitVec 10),
    ∃ t, exec (.reserved low) s = .next t ∧
      FaultEffect .decodeError none (.word (0x4C00#16 ||| field 0 low)) s t) ∧
  (∀ (s : State), s.fsm = .fetch → s.steps < s.params.stepBudget → s.fetchWord &&& 0xFC00#16 = 0x4C00#16 →
    ∃ t, step s = .next t ∧ FaultEffect .decodeError none (.word s.fetchWord) s.fetched t)

/-- R160 and R161. MOV and MOVI with their encodings and frames. -/
def Obligations.MovesWriteRegisterAndFlags : Prop :=
  (∀ (d s : BitVec 3) (x : BitVec 5),
    decodeWord (0x5000#16 ||| field 8 d ||| field 5 s ||| field 0 x) = .mov d.toFin s.toFin) ∧
  (∀ (d : BitVec 3) (imm : BitVec 8), decodeWord (0x5800#16 ||| field 8 d ||| field 0 imm) = .movi d.toFin imm) ∧
  (∀ (s : State) (d r : Reg), ∃ t, exec (.mov d r) s = .next t ∧ ResultEffect d (s.reg r) s t) ∧
  (∀ (s : State) (d : Reg) (imm : BitVec 8), ∃ t, exec (.movi d imm) s = .next t ∧
    ResultEffect d (imm.setWidth 16) s t ∧ t.flags = (if imm = 0 then .z else .p))

/-- R162 to R165. The four modes of AND with their encodings and frames. -/
def Obligations.AndWritesConjunction : Prop :=
  (∀ (d s : BitVec 3) (x : BitVec 4),
    decodeWord (0x6000#16 ||| field 8 d ||| field 5 s ||| field 1 x) = .and d.toFin s.toFin) ∧
  (∀ (d : BitVec 3) (imm : BitVec 7), decodeWord (0x6001#16 ||| field 8 d ||| field 1 imm) = .andi d.toFin imm) ∧
  (∀ (d s t : BitVec 3) (x : BitVec 1),
    decodeWord (0x6800#16 ||| field 8 d ||| field 5 s ||| field 2 t ||| field 1 x) = .and3 d.toFin s.toFin t.toFin) ∧
  (∀ (d s : BitVec 3) (imm : BitVec 4),
    decodeWord (0x6801#16 ||| field 8 d ||| field 5 s ||| field 1 imm) = .and3i d.toFin s.toFin imm) ∧
  (∀ (s : State) (d r : Reg), ∃ t, exec (.and d r) s = .next t ∧ ResultEffect d (s.reg d &&& s.reg r) s t) ∧
  (∀ (s : State) (d : Reg) (imm : BitVec 7), ∃ t, exec (.andi d imm) s = .next t ∧
    ResultEffect d (s.reg d &&& imm.setWidth 16) s t ∧ t.flags ≠ .n ∧ (t.reg d).toNat ≤ 0x7F) ∧
  (∀ (s : State) (d r q : Reg), ∃ t, exec (.and3 d r q) s = .next t ∧ ResultEffect d (s.reg r &&& s.reg q) s t) ∧
  (∀ (s : State) (d r : Reg) (imm : BitVec 4), ∃ t, exec (.and3i d r imm) s = .next t ∧
    ResultEffect d (s.reg r &&& imm.setWidth 16) s t ∧ t.flags ≠ .n ∧ (t.reg d).toNat ≤ 0xF)

/-- R166 to R169. The four modes of OR with their encodings and frames. -/
def Obligations.OrWritesDisjunction : Prop :=
  (∀ (d s : BitVec 3) (x : BitVec 4),
    decodeWord (0x7000#16 ||| field 8 d ||| field 5 s ||| field 1 x) = .or d.toFin s.toFin) ∧
  (∀ (d : BitVec 3) (imm : BitVec 7), decodeWord (0x7001#16 ||| field 8 d ||| field 1 imm) = .ori d.toFin imm) ∧
  (∀ (d s t : BitVec 3) (x : BitVec 1),
    decodeWord (0x7800#16 ||| field 8 d ||| field 5 s ||| field 2 t ||| field 1 x) = .or3 d.toFin s.toFin t.toFin) ∧
  (∀ (d s : BitVec 3) (imm : BitVec 4),
    decodeWord (0x7801#16 ||| field 8 d ||| field 5 s ||| field 1 imm) = .or3i d.toFin s.toFin imm) ∧
  (∀ (s : State) (d r : Reg), ∃ t, exec (.or d r) s = .next t ∧ ResultEffect d (s.reg d ||| s.reg r) s t) ∧
  (∀ (s : State) (d : Reg) (imm : BitVec 7), ∃ t, exec (.ori d imm) s = .next t ∧
    ResultEffect d (s.reg d ||| imm.setWidth 16) s t ∧ t.reg d >>> 7 = s.reg d >>> 7) ∧
  (∀ (s : State) (d r q : Reg), ∃ t, exec (.or3 d r q) s = .next t ∧ ResultEffect d (s.reg r ||| s.reg q) s t) ∧
  (∀ (s : State) (d r : Reg) (imm : BitVec 4), ∃ t, exec (.or3i d r imm) s = .next t ∧
    ResultEffect d (s.reg r ||| imm.setWidth 16) s t)

/-- R170. NOT with its encoding and frame. -/
def Obligations.NotComplements : Prop :=
  (∀ (x : BitVec 1) (d : BitVec 3) (y : BitVec 8),
    decodeWord (0x8000#16 ||| field 11 x ||| field 8 d ||| field 0 y) = .not d.toFin) ∧
  ∀ (s : State) (d : Reg), ∃ t, exec (.not d) s = .next t ∧ ResultEffect d (~~~ s.reg d) s t ∧
    (t.reg d).toNat = 65535 - (s.reg d).toNat ∧ (t.flags = .z ↔ s.reg d = 0xFFFF#16)

/-- R171 to R174. The four modes of ADD with their encodings and frames. -/
def Obligations.AddWritesSum : Prop :=
  (∀ (d s : BitVec 3) (x : BitVec 4),
    decodeWord (0x9000#16 ||| field 8 d ||| field 5 s ||| field 1 x) = .add d.toFin s.toFin) ∧
  (∀ (d : BitVec 3) (imm : BitVec 7), decodeWord (0x9001#16 ||| field 8 d ||| field 1 imm) = .addi d.toFin imm) ∧
  (∀ (d s t : BitVec 3) (x : BitVec 1),
    decodeWord (0x9800#16 ||| field 8 d ||| field 5 s ||| field 2 t ||| field 1 x) = .add3 d.toFin s.toFin t.toFin) ∧
  (∀ (d s : BitVec 3) (imm : BitVec 4),
    decodeWord (0x9801#16 ||| field 8 d ||| field 5 s ||| field 1 imm) = .add3i d.toFin s.toFin imm) ∧
  (∀ (s : State) (d r : Reg), ∃ t, exec (.add d r) s = .next t ∧ ResultEffect d (s.reg d + s.reg r) s t) ∧
  (∀ (s : State) (d : Reg) (imm : BitVec 7), ∃ t, exec (.addi d imm) s = .next t ∧
    ResultEffect d (s.reg d + imm.setWidth 16) s t) ∧
  (∀ (s : State) (d r q : Reg), ∃ t, exec (.add3 d r q) s = .next t ∧ ResultEffect d (s.reg r + s.reg q) s t) ∧
  (∀ (s : State) (d r : Reg) (imm : BitVec 4), ∃ t, exec (.add3i d r imm) s = .next t ∧
    ResultEffect d (s.reg r + imm.setWidth 16) s t)

/-- R175 to R178. The four modes of SUB with their encodings and frames. -/
def Obligations.SubWritesDifference : Prop :=
  (∀ (d s : BitVec 3) (x : BitVec 4),
    decodeWord (0xA000#16 ||| field 8 d ||| field 5 s ||| field 1 x) = .sub d.toFin s.toFin) ∧
  (∀ (d : BitVec 3) (imm : BitVec 7), decodeWord (0xA001#16 ||| field 8 d ||| field 1 imm) = .subi d.toFin imm) ∧
  (∀ (d s t : BitVec 3) (x : BitVec 1),
    decodeWord (0xA800#16 ||| field 8 d ||| field 5 s ||| field 2 t ||| field 1 x) = .sub3 d.toFin s.toFin t.toFin) ∧
  (∀ (d s : BitVec 3) (imm : BitVec 4),
    decodeWord (0xA801#16 ||| field 8 d ||| field 5 s ||| field 1 imm) = .sub3i d.toFin s.toFin imm) ∧
  (∀ (s : State) (d r : Reg), ∃ t, exec (.sub d r) s = .next t ∧ ResultEffect d (s.reg d - s.reg r) s t) ∧
  (∀ (s : State) (d : Reg) (imm : BitVec 7), ∃ t, exec (.subi d imm) s = .next t ∧
    ResultEffect d (s.reg d - imm.setWidth 16) s t) ∧
  (∀ (s : State) (d r q : Reg), ∃ t, exec (.sub3 d r q) s = .next t ∧ ResultEffect d (s.reg r - s.reg q) s t) ∧
  (∀ (s : State) (d r : Reg) (imm : BitVec 4), ∃ t, exec (.sub3i d r imm) s = .next t ∧
    ResultEffect d (s.reg r - imm.setWidth 16) s t)

/-- R179 and R180. CMP and CMPI with their encodings and frames. -/
def Obligations.CompareWritesFlagsOnly : Prop :=
  (∀ (d s : BitVec 3) (x : BitVec 5),
    decodeWord (0xB000#16 ||| field 8 d ||| field 5 s ||| field 0 x) = .cmp d.toFin s.toFin) ∧
  (∀ (d : BitVec 3) (imm : BitVec 8), decodeWord (0xB800#16 ||| field 8 d ||| field 0 imm) = .cmpi d.toFin imm) ∧
  (∀ (s : State) (d r : Reg), ∃ t, exec (.cmp d r) s = .next t ∧ CompareEffect (s.reg d - s.reg r) s t ∧
    (t.flags = .z ↔ s.reg d = s.reg r) ∧ (s.params.flagMode = .sourceLiteral → t.flags ≠ .n)) ∧
  (∀ (s : State) (d : Reg) (imm : BitVec 8), ∃ t, exec (.cmpi d imm) s = .next t ∧
    CompareEffect (s.reg d - imm.setWidth 16) s t ∧ (imm = 0 → t.flags = flagsOf s.params.flagMode (s.reg d)))

/-- R185. PUSH with its encoding, frame and bound check. -/
def Obligations.PushStoresBelowSp : Prop :=
  (∀ (x : BitVec 1) (s : BitVec 3) (y : BitVec 8),
    decodeWord (0xC000#16 ||| field 11 x ||| field 8 s ||| field 0 y) = .push s.toFin) ∧
  ∀ (s : State) (r : Reg),
    (s.params.stackFloor < s.sp → ∃ t, exec (.push r) s = .next t ∧ addrPush s = .ok (s.sp - 1).toNat ∧
      StoreEffect (s.sp - 1).toNat (s.reg r) (s.sp - 1) s t ∧ t.sp.toNat = s.sp.toNat - 1) ∧
    (s.sp ≤ s.params.stackFloor → ∃ t, exec (.push r) s = .next t ∧
      FaultEffect .stackError (some .overflow) (.stackPointer s.sp) s t)

/-- R186. POP with its encoding, frame and bound check; straight after reset it always raises. -/
def Obligations.PopLoadsAtSp : Prop :=
  (∀ (x : BitVec 1) (d : BitVec 3) (y : BitVec 8),
    decodeWord (0xD000#16 ||| field 11 x ||| field 8 d ||| field 0 y) = .pop d.toFin) ∧
  (∀ (s : State) (d : Reg),
    (s.sp < Config.stackBase → ∃ t, exec (.pop d) s = .next t ∧
      LoadEffect d (s.word s.sp.toNat) (s.sp + 1) s t ∧ t.sp.toNat = s.sp.toNat + 1) ∧
    (Config.stackBase ≤ s.sp → ∃ t, exec (.pop d) s = .next t ∧
      FaultEffect .stackError (some .underflow) (.stackPointer s.sp) s t)) ∧
  (∀ (p : Config.Params) (d : Reg), ∃ t, exec (.pop d) (State.resetWith p) = .next t ∧ t.status = .stackError)

/-- The property R187 derives from PUSH and POP (the spec marks it as derived). Its proviso "no store in between wrote address SP_before - 1" is weakened to: the word there is unchanged at the POP. -/
def Obligations.PushThenPopRestores : Prop :=
  ∀ (s t u v : State) (r d : Reg) (between : List Instr), s.fsm ≠ .fault →
    exec (.push r) s = .next t → t.fsm ≠ .fault → (∀ i ∈ between, isStackOp i = false) →
    execAll between t = .next u → u.word (s.sp - 1).toNat = t.word (s.sp - 1).toNat →
    exec (.pop d) u = .next v → v.fsm ≠ .fault → v.sp = s.sp ∧ v.reg d = s.reg r

/-- The extent of the stack, which R68 derives (the spec marks it as derived). -/
def Obligations.StackExtent : Prop :=
  (∀ s : State, s.stackDepth = Config.stackBase.toNat - s.sp.toNat ∧
    (s.stackEmpty = true ↔ s.sp = Config.stackBase) ∧ (s.stackEmpty = true ↔ s.stackDepth = 0) ∧
    (s.params.stackFloor ≤ s.sp → s.stackDepth ≤ Config.stackBase.toNat - s.params.stackFloor.toNat ∧
      (s.stackFull = true ↔ s.stackDepth = Config.stackBase.toNat - s.params.stackFloor.toNat))) ∧
  (∀ (s t : State) (r : Reg), s.fsm ≠ .fault → exec (.push r) s = .next t →
    t.word Config.stackBase.toNat = s.word Config.stackBase.toNat ∧
    (t.fsm ≠ .fault → t.stackDepth = s.stackDepth + 1)) ∧
  (∀ (s t : State) (d : Reg), s.fsm ≠ .fault → exec (.pop d) s = .next t → t.fsm ≠ .fault →
    t.stackDepth + 1 = s.stackDepth)

/-- R190. JMP with its encoding, frame and the AddressError of R64. -/
def Obligations.JumpThroughMemory : Prop :=
  (∀ (d : BitVec 3) (imm : BitVec 9), decodeWord (0xE000#16 ||| field 9 d ||| field 0 imm) = .jmp d.toFin imm) ∧
  ∀ (s : State) (d : Reg) (imm : BitVec 9),
    ((s.reg d).toNat + imm.toNat ≤ 0xFFFF ∨ s.params.eaOverflow = .wrap →
      ∃ t, exec (.jmp d imm) s = .next t ∧ JumpEffect (s.word (s.reg d + imm.setWidth 16).toNat) s.run s t) ∧
    (0xFFFF < (s.reg d).toNat + imm.toNat → s.params.eaOverflow = .fault →
      ∃ t, exec (.jmp d imm) s = .next t ∧
        FaultEffect .addressError none (.address ((s.reg d).toNat + imm.toNat)) s t)

/-- R191. HLT with its encoding and frame, and the cycle it ends. -/
def Obligations.HaltStopsTheRun : Prop :=
  (∀ x : BitVec 12, decodeWord (0xF000#16 ||| field 0 x) = .hlt) ∧
  (∀ s : State, ∃ t, exec .hlt s = .next t ∧ JumpEffect (s.pc + 1) false s t) ∧
  (∀ s : State, s.fsm = .fetch → s.steps < s.params.stepBudget → decodeWord s.fetchWord = .hlt →
    ∃ t, step s = .next t ∧ t.pc = s.pc + 1 ∧ t.run = false ∧ t.status = .halt ∧ t.fsm = .halted ∧
      t.steps = s.steps + 1 ∧ observed s = some t.snapshot ∧ ∀ u, step t ≠ .next u)

/-- R33, and with it that exactly one value results (R34, which the spec marks as derived). signed(r) is the two's-complement reading of R11, `BitVec.toInt`. -/
def Obligations.FlagsOfDerivesSignAndZero : Prop :=
  ∀ (mode : Config.FlagMode) (r : Word),
    (flagsOf mode r = .z ↔ r = 0) ∧ (flagsOf mode r = .n ↔ mode = .signed ∧ r.toInt < 0) ∧
    (flagsOf mode r = .p ↔ r ≠ 0 ∧ (mode = .sourceLiteral ∨ 0 < r.toInt)) ∧
    (flagsOf mode r = .n ∨ flagsOf mode r = .z ∨ flagsOf mode r = .p)

/-- R31. The physical encoding of FLAGS. -/
def Obligations.FlagsEncodingIsOneHot : Prop :=
  Flag.n.oneHot = 0b100#3 ∧ Flag.z.oneHot = 0b010#3 ∧ Flag.p.oneHot = 0b001#3 ∧
  (∀ f : Flag, f = .n ∨ f = .z ∨ f = .p) ∧
  ∀ b : BitVec 3, (∃ f : Flag, f.oneHot = b) ↔ b = 0b100#3 ∨ b = 0b010#3 ∨ b = 0b001#3

/-- The first half of R32, over every instruction. -/
def Obligations.FlagsWrittenByFlagProducingFormsOnly : Prop :=
  ∀ (i : Instr) (s t : State), s.fsm ≠ .fault → exec i s = .next t →
    (t.fsm ≠ .fault → t.flags = if flagProducing i then flagsOf s.params.flagMode (resultOf s i) else s.flags) ∧
    (t.fsm = .fault → t.flags = s.flags) ∧ (flagProducing i = true → t.fsm ≠ .fault) ∧
    (∀ d, flagProducing i = true → i.writes = some d → t.reg d = resultOf s i)

/-- The second half of R32, as noninterference: FLAGS is the secret. -/
def Obligations.OnlyConditionalBranchesReadFlags : Prop :=
  ∀ (i : Instr) (s t : State) (f : Flag), (∀ imm, i ≠ .beq imm ∧ i ≠ .bne imm ∧ i ≠ .bgt imm ∧ i ≠ .blt imm) →
    exec i s = .next t → ∃ u, exec i (s.setFlags f) = .next u ∧ SameOutcome t u

/-- R23. `Instr.reads` and `Instr.writes` are its lists; that a listed register is really written, the statements about the forms say. -/
def Obligations.RegistersReadAndWritten : Prop :=
  (∀ (i : Instr) (s t : State) (q : Reg), exec i s = .next t → i.writes ≠ some q → t.reg q = s.reg q) ∧
  (∀ (i : Instr) (s t : State) (q : Reg) (v : Word), exec i s = .next t → q ∉ i.reads →
    ∃ u, exec i (s.setReg q v) = .next u ∧ SameRegsExcept q t u ∧
      (i.writes = some q → t.fsm ≠ .fault → s.fsm ≠ .fault → u.reg q = t.reg q) ∧
      u.sp = t.sp ∧ u.pc = t.pc ∧ u.run = t.run ∧ u.flags = t.flags ∧ SameMemory t u ∧ u.fsm = t.fsm ∧
      u.status = t.status)

/-- The SP rules of R25, over every instruction. -/
def Obligations.OnlyPushAndPopChangeSp : Prop :=
  ∀ (i : Instr) (s t : State), exec i s = .next t →
    (t.sp ≠ s.sp → isStackOp i = true) ∧
    (∀ r, i = .push r → t.sp ≠ s.sp → s.params.stackFloor < s.sp ∧ t.sp.toNat + 1 = s.sp.toNat) ∧
    (∀ d, i = .pop d → t.sp ≠ s.sp → s.sp < Config.stackBase ∧ t.sp.toNat = s.sp.toNat + 1) ∧
    (s.params.stackFloor ≤ s.sp → t.params.stackFloor ≤ t.sp)

/-- R26. LR as a register that nothing uses. -/
def Obligations.LinkRegisterIsInert : Prop :=
  (∀ s t : State, step s = .next t → t.lr = s.lr) ∧
  (∀ (i : Instr) (s t : State) (v : Word), exec i s = .next t →
    ∃ u, exec i { s with lr := v } = .next u ∧ u.flags = t.flags ∧ SameOutcome t u) ∧
  (∀ (p : Config.Params) (program : List Word) (s : State) (k : Nat), boot p program = .ok s → (runFor k s).lr = 0) ∧
  (∀ s : State, s.snapshot.lr = s.lr)

/-- R35. The execution-enabled bit. -/
def Obligations.RunIsClearedByHaltOnly : Prop :=
  (∀ p : Config.Params, (State.resetWith p).run = true) ∧
  (∀ (i : Instr) (s t : State), exec i s = .next t → t.run = if i = .hlt then false else s.run) ∧
  (∀ s t : State, step s = .next t → t.run = false → t.fsm.terminal = true ∧ ∀ u, step t ≠ .next u)

/-- The PC sequencer. `pcSourceOf` is the table of R28. Its row for a branch that is not taken is derived by the spec (D15), and the wrap of the increment is the spec's reading (R29, D16). -/
def Obligations.NextPcComesFromItsSource : Prop :=
  (∀ pc : Word, (PcSource.inc.next pc).toNat = (pc.toNat + 1) % 65536) ∧ PcSource.inc.next 0xFFFF#16 = 0 ∧
  (∀ (pc : Word) (imm : BitVec 12), ((PcSource.imm12 imm).next pc).toNat = imm.toNat) ∧
  (∀ (pc : Word) (imm : BitVec 11), ((PcSource.imm11 imm).next pc).toNat = imm.toNat) ∧
  (∀ (s : State) (d : Reg) (imm : BitVec 9) (a : Nat),
    effectiveAddress s.params.eaOverflow (s.reg d) (imm.setWidth 16) = .ok a →
    ∃ src, pcSourceOf s (.jmp d imm) = some src ∧ src.next s.pc = s.word a) ∧
  (∀ (i : Instr) (s t : State), s.fsm ≠ .fault → exec i s = .next t → t.fsm ≠ .fault →
    ∃ src, pcSourceOf s i = some src ∧ t.pc = src.next s.pc)

/-- R204. Faults are precise. -/
def Obligations.FaultsArePrecise : Prop :=
  ∀ s t : State, s.fsm = .fetch → step s = .next t → t.fsm = .fault →
    t.pc = s.pc ∧ t.ir = s.fetchWord ∧ SameRegs s t ∧ t.sp = s.sp ∧ t.lr = s.lr ∧ t.flags = s.flags ∧
    SameMemory s t ∧ t.run = s.run ∧ (s.run = true → t.run = true) ∧ t.steps = s.steps ∧ observed s = none ∧
    decodeWord s.fetchWord ≠ .hlt ∧ t.romLen = s.romLen ∧ t.params = s.params ∧
    (∃ r, t.fault = some r ∧ r.status = t.status ∧ r.pc = s.pc ∧ r.ir = s.fetchWord ∧
      r.snapshot = ⟨⟨s.pc, s.regs, s.sp, s.lr, s.flags, s.fetchWord⟩, s.run, s.steps, s.mem⟩ ∧
      terminationReport t = some ⟨t.status.code, .fault, r.snapshot, some r⟩)

/-- The causes of R201, R202, R205 and R207. -/
def Obligations.EachFormRaisesItsOwnErrorOnly : Prop :=
  ∀ (i : Instr) (s t : State), s.fsm ≠ .fault → exec i s = .next t → t.fsm = .fault → ∃ r, t.fault = some r ∧
    ((t.status = .decodeError ∧ i.valid = false ∧ r.cause = none ∧ r.info = .word (encode i)) ∨
     (t.status = .stackError ∧ (∃ q, i = .push q) ∧ s.sp ≤ s.params.stackFloor ∧ r.cause = some .overflow ∧
       r.info = .stackPointer s.sp) ∨
     (t.status = .stackError ∧ (∃ q, i = .pop q) ∧ Config.stackBase ≤ s.sp ∧ r.cause = some .underflow ∧
       r.info = .stackPointer s.sp) ∨
     (t.status = .addressError ∧ s.params.eaOverflow = .fault ∧ r.cause = none ∧
       (i.form = .ldx ∨ i.form = .ldd ∨ i.form = .stx ∨ i.form = .std ∨ i.form = .jmp) ∧
       ∃ a, r.info = .address a ∧ 0x10000 ≤ a ∧ a ≤ 0x1FFFE))

/-- The safe side of R201, R202 and R205: without a cause there is no fault. -/
def Obligations.RunWithoutErrorCausesIsFaultFree : Prop :=
  ∀ (k : Nat) (s : State), s.fsm ≠ .fault → s.params.eaOverflow = .wrap →
    (∀ j < k, (runFor j s).fsm = .fetch → (runFor j s).steps < s.params.stepBudget →
      (decodeWord (runFor j s).fetchWord).valid = true ∧ isStackOp (decodeWord (runFor j s).fetchWord) = false) →
    FaultFree k s

/-- The cycle of R247 around exec. Every word decodes to an instruction, the reserved encoding included. -/
def Obligations.StepRunsTheDecodedInstruction : Prop :=
  ∀ (s : State) (i : Instr), s.fsm = .fetch → s.steps < s.params.stepBudget → decodeWord (s.word s.pc.toNat) = i →
    ∃ t, exec i { s with ir := s.word s.pc.toNat } = .next t ∧
      (t.fsm = .fault → step s = .next t) ∧
      (t.fsm ≠ .fault → t.run = true → step s = .next { t with steps := t.steps + 1, fsm := .fetch }) ∧
      (t.fsm ≠ .fault → t.run = false →
        step s = .next { t with steps := t.steps + 1, status := .halt, fsm := .halted })

/-- R247: `step(S)` is defined only when `S.state = FETCH`. The names of the two faults are the model's, log entries 6 and 7. -/
def Obligations.StepIsDefinedExactlyAtFetch : Prop :=
  (∀ s : State, (∃ t, step s = .next t) ↔ s.fsm = .fetch) ∧
  (∀ s : State, s.fsm ≠ .fetch →
    step s = .fault (if s.fsm.terminal then .terminalState s.fsm else .midCycle s.fsm)) ∧
  (∀ (s : State) (r : Refusal), step s ≠ .refused r)

/-- R246. The step budget. -/
def Obligations.BudgetStopsTheRun : Prop :=
  (∀ s : State, s.fsm = .fetch → s.params.stepBudget ≤ s.steps →
    step s = .next { s with status := .budgetExceeded, fsm := .budget } ∧ observed s = none) ∧
  (∀ s : State, s.fsm = .fetch → s.steps + 1 = s.params.stepBudget → decodeWord s.fetchWord = .hlt →
    ∃ t, step s = .next t ∧ t.status = .halt ∧ t.steps = s.params.stepBudget) ∧
  (∀ (p : Config.Params) (program : List Word) (s : State) (k : Nat), boot p program = .ok s →
    (runFor k s).steps ≤ p.stepBudget) ∧
  (∀ (p : Config.Params) (program : List Word) (s : State) (k : Nat), p.stepBudget = 0 → boot p program = .ok s →
    (runFor (k + 1) s).fsm = .budget ∧ (runFor (k + 1) s).status = .budgetExceeded ∧ (runFor (k + 1) s).pc = 0 ∧
    (runFor (k + 1) s).ir = 0 ∧ (runFor (k + 1) s).steps = 0)

/-- R248. The terminal states. -/
def Obligations.TerminalStatesAreFrozen : Prop :=
  ∀ s : State, s.fsm.terminal = true →
    step s = .fault (.terminalState s.fsm) ∧ observed s = none ∧ (∀ k, runFor k s = s ∧ trace k s = []) ∧
    (∀ k r w, phases k ⟨s, r, w⟩ = ⟨s, r, w⟩) ∧ (hostReset s).fsm = .fetch

/-- R215. The observer port. -/
def Obligations.ObserverSeesCompletedCycles : Prop :=
  ∀ s t : State, s.fsm = .fetch → step s = .next t →
    (t.fsm = .fault ∨ t.fsm = .budget → observed s = none) ∧
    (t.fsm ≠ .fault → t.fsm ≠ .budget → t.steps = s.steps + 1 ∧
      observed s = some ⟨t.pc, t.regs, t.sp, t.lr, t.flags, t.ir⟩) ∧
    (∀ k, trace (k + 1) s = (observed s).toList ++ trace k t)

/-- The termination port of R216. That the report shows memory and RUN beside the list of R215 is R204 for a fault and R218 for a halt; that it does so for every ended run is log entry 18. -/
def Obligations.TerminationPortReports : Prop :=
  (∀ s : State, s.fsm.terminal = true → ∃ r, terminationReport s = some r ∧
    r.snapshot.toSnapshot = ⟨s.pc, s.regs, s.sp, s.lr, s.flags, s.ir⟩ ∧ r.snapshot.steps = s.steps ∧
    r.snapshot.run = s.run ∧ (∀ a, r.snapshot.mem.read a = s.word a) ∧ r.fsm = s.fsm ∧ r.record = s.fault ∧
    r.code = (match s.status with
      | .running => 0 | .halt => 1 | .budgetExceeded => 2
      | .decodeError => 3 | .addressError => 4 | .stackError => 5)) ∧
  (∀ s : State, s.fsm.terminal = false → terminationReport s = none)

/-- R240. The state table and its codes. -/
def Obligations.PhasesFollowTheStateTable : Prop :=
  [FsmState.fetch, .decode, .execute, .flagUpdate, .continueOrHalt, .halted, .budget, .fault].map FsmState.code =
    [0, 1, 2, 3, 4, 5, 6, 7] ∧
  ∀ m : Micro,
    match m.state.fsm with
    | .fetch => (phase m).state.fsm = .decode ∨ (phase m).state.fsm = .budget
    | .decode => (phase m).state.fsm = .execute ∨ (phase m).state.fsm = .fault
    | .execute => (phase m).state.fsm = .flagUpdate ∨ (phase m).state.fsm = .fault
    | .flagUpdate => (phase m).state.fsm = .continueOrHalt
    | .continueOrHalt => (phase m).state.fsm = .fetch ∨ (phase m).state.fsm = .halted
    | .halted | .budget | .fault => phase m = m

/-- The cycle function of R247 refines the state machine of R241 to R245. -/
def Obligations.FivePhasesAreOneStep : Prop :=
  ∀ (s : State) (r : Word) (w : Bool), s.fsm = .fetch →
    step s = .next (phases 5 ⟨s, r, w⟩).state ∧ observed s = phaseEmits (phases 4 ⟨s, r, w⟩)

/-- R247: every run terminates within STEP_BUDGET + 1 calls. -/
def Obligations.EveryRunEndsWithinTheBudget : Prop :=
  (∀ (s : State) (k : Nat), s.fsm = .fetch → s.params.stepBudget - s.steps < k →
    (runFor k s).fsm.terminal = true) ∧
  (∀ (p : Config.Params) (program : List Word) (s : State), boot p program = .ok s →
    ∃ report, terminationReport (runFor (p.stepBudget + 1) s) = some report ∧ report.code ≠ 0)

/-- The invariant over every step from every sound state: R8 and R232 (parameters), R25, R26, R231 (ROM length), R37 and R246 (STEPS), R35, R38, R203, R240, R241 and R245 (STATUS and RUN with the FSM state), R200, R204, R212 and R218 (the fault record). The model's are the parameters as a field and R8's bounds on them as a premise (log entries 1 and 17), the canonical form of memory (log entry 3), the record and the ROM length as fields of the state (log entry 8), and RUN, STEPS and memory in the record's snapshot (log entry 18). -/
def Obligations.EveryStepKeepsSoundness : Prop :=
  ∀ s t : State, Sound s → step s = .next t → Sound t ∧ t.params = s.params ∧ t.romLen = s.romLen

/-- The start of the invariant (R8, R40, R230, R231). State.reset takes the parameters of log entry 2; the parameters as a field, the canonical form of memory, and the record and the ROM length as fields with their reset values are log entries 1, 3 and 8. -/
def Obligations.SoundAtResetAndAfterBoot : Prop :=
  (∀ p : Config.Params, p.WellFormed → Sound (State.resetWith p)) ∧
  (∀ (p : Config.Params) (program : List Word) (s : State), p.WellFormed → boot p program = .ok s → Sound s) ∧
  Sound State.reset
end

