-- ==== Sys2Proof/Laws/Bits.lean ====
section
/-! SUPPORT. How slices and fields of a word cancel: the lemmas behind every statement that the decoder reads what the
encoder writes. -/

namespace Sys2Proof

theorem slice_or (lo n : Nat) (a b : Word) : slice lo n (a ||| b) = slice lo n a ||| slice lo n b := by
  simp [slice, BitVec.extractLsb'_or]

theorem slice_field_same {n lo : Nat} (v : BitVec n) (h : lo + n ≤ 16) : slice lo n (field lo v) = v := by
  apply BitVec.eq_of_getLsbD_eq
  intro i hi
  simp only [slice, field, BitVec.getLsbD_extractLsb', BitVec.getLsbD_shiftLeft, BitVec.getLsbD_setWidth]
  simp [hi, show lo + i < 16 by omega, show i < 16 by omega]

theorem slice_field_disjoint {n m lo lo' : Nat} (v : BitVec m) (h : lo + n ≤ lo' ∨ lo' + m ≤ lo) :
    slice lo n (field lo' v) = 0#n := by
  apply BitVec.eq_of_getLsbD_eq
  intro i hi
  simp only [slice, field, BitVec.getLsbD_extractLsb', BitVec.getLsbD_shiftLeft, BitVec.getLsbD_setWidth]
  rcases h with h | h
  · simp [show lo + i < lo' by omega]
  · rw [BitVec.getLsbD_of_ge v (lo + i - lo') (by omega)]; simp

theorem bit_or (i : Nat) (a b : Word) : bit i (a ||| b) = (bit i a || bit i b) := by
  simp [bit]

theorem bit_field_disjoint {m i lo : Nat} (v : BitVec m) (h : i < lo ∨ lo + m ≤ i) : bit i (field lo v) = false := by
  simp only [bit, field, BitVec.getLsbD_shiftLeft, BitVec.getLsbD_setWidth]
  rcases h with h | h
  · simp [h]
  · rw [BitVec.getLsbD_of_ge v (i - lo) (by omega)]; simp

theorem regField_or_left {lo : Nat} (a b : Word) (h : slice lo 3 a = 0#3) : regField lo (a ||| b) = regField lo b := by
  simp [regField, slice_or, h]

theorem regField_or_right {lo : Nat} (a b : Word) (h : slice lo 3 b = 0#3) : regField lo (a ||| b) = regField lo a := by
  simp [regField, slice_or, h]

theorem regField_putReg {lo : Nat} (r : Reg) (h : lo + 3 ≤ 16) : regField lo (putReg lo r) = r := by
  simp [regField, putReg, slice_field_same _ h]

/-- A field outside a mask contributes nothing under it. -/
theorem field_and_mask {n lo : Nat} (v : BitVec n) (mask : Word) (h : ∀ i < n, mask.getLsbD (lo + i) = false) :
    field lo v &&& mask = 0 := by
  apply BitVec.eq_of_getLsbD_eq
  intro i hi
  simp only [field, BitVec.getLsbD_and, BitVec.getLsbD_shiftLeft, BitVec.getLsbD_setWidth]
  by_cases hlo : i < lo
  · simp [hlo]
  · by_cases hn : i - lo < n
    · have := h (i - lo) hn
      rw [show lo + (i - lo) = i by omega] at this
      simp [this]
    · rw [BitVec.getLsbD_of_ge v (i - lo) (by omega)]; simp

theorem or_and_mask (a b mask : Word) : (a ||| b) &&& mask = (a &&& mask) ||| (b &&& mask) := by
  apply BitVec.eq_of_getLsbD_eq
  intro i _
  simp [Bool.and_or_distrib_right]

end Sys2Proof
end

