-- ==== Sys2Proof/Laws/Decode.lean ====
section
/-! SUPPORT. The decoder in the shape proofs want: the form depends on the opcode field and three selector bits, and a
slice or bit of a literal word is computed. -/

namespace Sys2Proof

@[simp] theorem slice_ofNat (lo n k : Nat) (h : lo + n ≤ 16) :
    slice lo n (BitVec.ofNat 16 k) = BitVec.ofNat n (k >>> lo) := by
  apply BitVec.eq_of_getLsbD_eq
  intro i hi
  simp only [slice, BitVec.getLsbD_extractLsb', BitVec.getLsbD_ofNat, Nat.testBit_shiftRight]
  simp [hi, show lo + i < 16 by omega]

@[simp] theorem bit_ofNat (i k : Nat) : bit i (BitVec.ofNat 16 k) = (decide (i < 16) && k.testBit i) := by
  simp only [bit, BitVec.getLsbD_ofNat]

/-- The dispatch of R98 and R99 on what it depends on: the opcode field and bits 11, 10 and 0. -/
def selectForm (op : BitVec 4) (b11 b10 b0 : Bool) : Form :=
  match opcodeOf op with
  | .branch     => .b
  | .branchZero => byExt b11 .beq .bne
  | .branchSign => byExt b11 .bgt .blt
  | .load       => byMode b11 b10 .ld .ldx .ldd .ldi
  | .store      => byMode b11 b10 .st .stx .std .reserved
  | .move       => byExt b11 .mov .movi
  | .and        => byMode b11 b0 .and .andi .and3 .and3i
  | .or         => byMode b11 b0 .or .ori .or3 .or3i
  | .not        => .not
  | .add        => byMode b11 b0 .add .addi .add3 .add3i
  | .sub        => byMode b11 b0 .sub .subi .sub3 .sub3i
  | .compare    => byExt b11 .cmp .cmpi
  | .push       => .push
  | .pop        => .pop
  | .jump       => .jmp
  | .halt       => .hlt

theorem formOf_eq_selectForm (w : Word) : formOf w = selectForm (slice 12 4 w) (bit 11 w) (bit 10 w) (bit 0 w) := by
  have h1 : (slice 10 2 w).getLsbD 1 = bit 11 w := by simp [slice, bit]
  have h0 : (slice 10 2 w).getLsbD 0 = bit 10 w := by simp [slice, bit]
  unfold formOf Form.ofFields Fields.ofWord selectForm
  simp only [h1, h0]
  all_goals rfl

theorem decodeWord_of_form {w : Word} {f : Form} (h : formOf w = f) : decodeWord w = f.build (Fields.ofWord w) := by
  rw [decodeWord, h]

/-- The form of a decoded instruction is the form of its word. -/
theorem form_build (f : Form) (x : Fields) : (f.build x).form = f := by cases f <;> rfl

theorem form_decodeWord (w : Word) : (decodeWord w).form = formOf w := form_build _ _

/-- The write port is enabled exactly for the forms that write a register (R23, R24), whatever its index. -/
theorem portsOf_writeEnable (w : Word) : (portsOf w).writeEnable = (decodeWord w).writes.isSome := by
  simp only [portsOf]
  split <;> rfl

end Sys2Proof
end

