-- ==== Sys2Proof/Laws/Memory.lean ====
section
/-! SUPPORT. The laws of memory: a read after a write, and that every memory operation keeps the canonical form. -/

namespace Sys2Proof.Machine

theorem read_erase (m : Memory) (a b : Nat) : (m.erase a).read b = if b = a then Memory.unlisted else m.read b := by
  induction m with
  | nil => simp [Memory.erase, Memory.read]
  | cons c rest ih =>
    obtain ⟨k, v⟩ := c
    unfold Memory.erase at ih ⊢
    by_cases hk : k = a
    · rw [List.filter_cons_of_neg (by simp [hk]), ih]
      by_cases hb : b = a
      · simp [hb]
      · have : k ≠ b := fun h => hb (h ▸ hk)
        simp [Memory.read, hb, this]
    · rw [List.filter_cons_of_pos (by simp [hk])]
      simp only [Memory.read, ih]
      by_cases hkb : k = b
      · simp [hkb, show b ≠ a from fun h => hk (hkb.trans h)]
      · simp [hkb]

theorem read_insert_self (m : Memory) (a : Nat) (v : Word) (h : ∀ c ∈ m, c.1 ≠ a) : (m.insert a v).read a = v := by
  induction m with
  | nil => simp [Memory.insert, Memory.read]
  | cons c rest ih =>
    obtain ⟨k, u⟩ := c
    have hk : k ≠ a := h (k, u) (by simp)
    unfold Memory.insert
    split
    · simp [Memory.read]
    · simp only [Memory.read, if_neg hk]
      exact ih fun c hc => h c (by simp [hc])

theorem read_insert_of_ne (m : Memory) (a b : Nat) (v : Word) (h : b ≠ a) : (m.insert a v).read b = m.read b := by
  induction m with
  | nil => simp [Memory.insert, Memory.read, h.symm]
  | cons c rest ih =>
    obtain ⟨k, u⟩ := c
    unfold Memory.insert
    split
    · simp [Memory.read, h.symm]
    · simp only [Memory.read, ih]

theorem mem_erase_ne (m : Memory) (a : Nat) : ∀ c ∈ m.erase a, c.1 ≠ a := by
  intro c hc
  simpa using (List.mem_filter.1 hc).2

/-- A read after a write: the word written, or what stood at another address (R60, R61, R76). -/
theorem read_write (m : Memory) (a b : Nat) (v : Word) : (m.write a v).read b = if b = a then v else m.read b := by
  unfold Memory.write
  split
  · rename_i hv
    rw [read_erase, hv]
  · by_cases hb : b = a
    · rw [if_pos hb, hb, read_insert_self _ _ _ (mem_erase_ne m a)]
    · rw [if_neg hb, read_insert_of_ne _ _ _ _ hb, read_erase, if_neg hb]

@[simp] theorem read_write_self (m : Memory) (a : Nat) (v : Word) : (m.write a v).read a = v := by
  rw [read_write, if_pos rfl]

theorem read_write_of_ne (m : Memory) {a b : Nat} (v : Word) (h : b ≠ a) : (m.write a v).read b = m.read b := by
  rw [read_write, if_neg h]

theorem erase_wf {m : Memory} (h : m.wf) (a : Nat) : (m.erase a).wf :=
  ⟨h.1.sublist List.filter_sublist, fun c hc => h.2 c (List.mem_filter.1 hc).1⟩

theorem mem_insert_iff (m : Memory) (a : Nat) (v : Word) (c : WordCell) :
    c ∈ m.insert a v ↔ c = (a, v) ∨ c ∈ m := by
  induction m with
  | nil => simp [Memory.insert]
  | cons d rest ih =>
    unfold Memory.insert
    split
    · simp
    · simp only [List.mem_cons, ih]; tauto

theorem insert_wf {m : Memory} (h : m.wf) {a : Nat} {v : Word} (ha : a < Config.memWords) (hv : v ≠ Memory.unlisted)
    (hne : ∀ c ∈ m, c.1 ≠ a) : (m.insert a v).wf := by
  refine ⟨?_, fun c hc => ?_⟩
  · replace h := h.1
    induction m with
    | nil => simp [Memory.insert]
    | cons d rest ih =>
      obtain ⟨hd, hrest⟩ := List.pairwise_cons.1 h
      have hda : d.1 ≠ a := hne d (by simp)
      unfold Memory.insert
      split
      · rename_i hlt
        refine List.pairwise_cons.2 ⟨fun c hc => ?_, h⟩
        rcases List.mem_cons.1 hc with rfl | hc
        · exact hlt
        · exact lt_trans hlt (hd c hc)
      · rename_i hnlt
        refine List.pairwise_cons.2 ⟨fun c hc => ?_, ih (fun c hc => hne c (by simp [hc])) hrest⟩
        rcases (mem_insert_iff _ _ _ _).1 hc with rfl | hc
        · show d.1 < a
          have : ¬ a < d.1 := hnlt
          omega
        · exact hd c hc
  · rcases (mem_insert_iff _ _ _ _).1 hc with rfl | hc
    · exact ⟨ha, hv⟩
    · exact h.2 c hc

/-- A write inside the address space keeps the canonical form. -/
theorem write_wf {m : Memory} (h : m.wf) {a : Nat} (ha : a < Config.memWords) (v : Word) : (m.write a v).wf := by
  unfold Memory.write
  split
  · exact erase_wf h a
  · rename_i hv
    exact insert_wf (erase_wf h a) ha hv (mem_erase_ne m a)

/-- A program load inside the address space keeps the canonical form. -/
theorem writeFrom_wf {m : Memory} (h : m.wf) (a : Nat) (ws : List Word) (ha : a + ws.length ≤ Config.memWords) :
    (m.writeFrom a ws).wf := by
  induction ws generalizing m a with
  | nil => exact h
  | cons w rest ih =>
    simp only [List.length_cons] at ha
    exact ih (write_wf h (by omega) w) (a + 1) (by omega)

/-- Reset memory is in canonical form, under any parameters. -/
theorem resetWith_mem_wf (p : Config.Params) : (State.resetWith p).mem.wf := by
  simp [State.resetWith, Memory.wf]

theorem reset_mem_wf : State.reset.mem.wf := resetWith_mem_wf _

end Sys2Proof.Machine
end

