-- ==== Sys2Proof/Laws/State.lean ====
section
/-! SUPPORT. One lemma per field per named update of the state, so that no later proof unfolds a record update. -/

namespace Sys2Proof.Machine

@[simp] theorem setReg_params (s : State) (r : Reg) (v : Word) : (s.setReg r v).params = s.params := rfl
@[simp] theorem setReg_regs (s : State) (r : Reg) (v : Word) : (s.setReg r v).regs = s.regs.set r v := rfl
@[simp] theorem setReg_sp (s : State) (r : Reg) (v : Word) : (s.setReg r v).sp = s.sp := rfl
@[simp] theorem setReg_lr (s : State) (r : Reg) (v : Word) : (s.setReg r v).lr = s.lr := rfl
@[simp] theorem setReg_pc (s : State) (r : Reg) (v : Word) : (s.setReg r v).pc = s.pc := rfl
@[simp] theorem setReg_flags (s : State) (r : Reg) (v : Word) : (s.setReg r v).flags = s.flags := rfl
@[simp] theorem setReg_run (s : State) (r : Reg) (v : Word) : (s.setReg r v).run = s.run := rfl
@[simp] theorem setReg_ir (s : State) (r : Reg) (v : Word) : (s.setReg r v).ir = s.ir := rfl
@[simp] theorem setReg_steps (s : State) (r : Reg) (v : Word) : (s.setReg r v).steps = s.steps := rfl
@[simp] theorem setReg_fsm (s : State) (r : Reg) (v : Word) : (s.setReg r v).fsm = s.fsm := rfl
@[simp] theorem setReg_status (s : State) (r : Reg) (v : Word) : (s.setReg r v).status = s.status := rfl
@[simp] theorem setReg_mem (s : State) (r : Reg) (v : Word) : (s.setReg r v).mem = s.mem := rfl
@[simp] theorem setReg_romLen (s : State) (r : Reg) (v : Word) : (s.setReg r v).romLen = s.romLen := rfl
@[simp] theorem setReg_fault (s : State) (r : Reg) (v : Word) : (s.setReg r v).fault = s.fault := rfl

@[simp] theorem setSp_params (s : State) (v : Word) : (s.setSp v).params = s.params := rfl
@[simp] theorem setSp_regs (s : State) (v : Word) : (s.setSp v).regs = s.regs := rfl
@[simp] theorem setSp_sp (s : State) (v : Word) : (s.setSp v).sp = v := rfl
@[simp] theorem setSp_lr (s : State) (v : Word) : (s.setSp v).lr = s.lr := rfl
@[simp] theorem setSp_pc (s : State) (v : Word) : (s.setSp v).pc = s.pc := rfl
@[simp] theorem setSp_flags (s : State) (v : Word) : (s.setSp v).flags = s.flags := rfl
@[simp] theorem setSp_run (s : State) (v : Word) : (s.setSp v).run = s.run := rfl
@[simp] theorem setSp_ir (s : State) (v : Word) : (s.setSp v).ir = s.ir := rfl
@[simp] theorem setSp_steps (s : State) (v : Word) : (s.setSp v).steps = s.steps := rfl
@[simp] theorem setSp_fsm (s : State) (v : Word) : (s.setSp v).fsm = s.fsm := rfl
@[simp] theorem setSp_status (s : State) (v : Word) : (s.setSp v).status = s.status := rfl
@[simp] theorem setSp_mem (s : State) (v : Word) : (s.setSp v).mem = s.mem := rfl
@[simp] theorem setSp_romLen (s : State) (v : Word) : (s.setSp v).romLen = s.romLen := rfl
@[simp] theorem setSp_fault (s : State) (v : Word) : (s.setSp v).fault = s.fault := rfl

@[simp] theorem setFlags_params (s : State) (f : Flag) : (s.setFlags f).params = s.params := rfl
@[simp] theorem setFlags_regs (s : State) (f : Flag) : (s.setFlags f).regs = s.regs := rfl
@[simp] theorem setFlags_sp (s : State) (f : Flag) : (s.setFlags f).sp = s.sp := rfl
@[simp] theorem setFlags_lr (s : State) (f : Flag) : (s.setFlags f).lr = s.lr := rfl
@[simp] theorem setFlags_pc (s : State) (f : Flag) : (s.setFlags f).pc = s.pc := rfl
@[simp] theorem setFlags_flags (s : State) (f : Flag) : (s.setFlags f).flags = f := rfl
@[simp] theorem setFlags_run (s : State) (f : Flag) : (s.setFlags f).run = s.run := rfl
@[simp] theorem setFlags_ir (s : State) (f : Flag) : (s.setFlags f).ir = s.ir := rfl
@[simp] theorem setFlags_steps (s : State) (f : Flag) : (s.setFlags f).steps = s.steps := rfl
@[simp] theorem setFlags_fsm (s : State) (f : Flag) : (s.setFlags f).fsm = s.fsm := rfl
@[simp] theorem setFlags_status (s : State) (f : Flag) : (s.setFlags f).status = s.status := rfl
@[simp] theorem setFlags_mem (s : State) (f : Flag) : (s.setFlags f).mem = s.mem := rfl
@[simp] theorem setFlags_romLen (s : State) (f : Flag) : (s.setFlags f).romLen = s.romLen := rfl
@[simp] theorem setFlags_fault (s : State) (f : Flag) : (s.setFlags f).fault = s.fault := rfl

@[simp] theorem flagged_params (s : State) (r : Word) : (s.flagged r).params = s.params := rfl
@[simp] theorem flagged_regs (s : State) (r : Word) : (s.flagged r).regs = s.regs := rfl
@[simp] theorem flagged_sp (s : State) (r : Word) : (s.flagged r).sp = s.sp := rfl
@[simp] theorem flagged_lr (s : State) (r : Word) : (s.flagged r).lr = s.lr := rfl
@[simp] theorem flagged_pc (s : State) (r : Word) : (s.flagged r).pc = s.pc := rfl
@[simp] theorem flagged_flags (s : State) (r : Word) : (s.flagged r).flags = flagsOf s.params.flagMode r := rfl
@[simp] theorem flagged_run (s : State) (r : Word) : (s.flagged r).run = s.run := rfl
@[simp] theorem flagged_ir (s : State) (r : Word) : (s.flagged r).ir = s.ir := rfl
@[simp] theorem flagged_steps (s : State) (r : Word) : (s.flagged r).steps = s.steps := rfl
@[simp] theorem flagged_fsm (s : State) (r : Word) : (s.flagged r).fsm = s.fsm := rfl
@[simp] theorem flagged_status (s : State) (r : Word) : (s.flagged r).status = s.status := rfl
@[simp] theorem flagged_mem (s : State) (r : Word) : (s.flagged r).mem = s.mem := rfl
@[simp] theorem flagged_romLen (s : State) (r : Word) : (s.flagged r).romLen = s.romLen := rfl
@[simp] theorem flagged_fault (s : State) (r : Word) : (s.flagged r).fault = s.fault := rfl

@[simp] theorem setRun_params (s : State) (b : Bool) : (s.setRun b).params = s.params := rfl
@[simp] theorem setRun_regs (s : State) (b : Bool) : (s.setRun b).regs = s.regs := rfl
@[simp] theorem setRun_sp (s : State) (b : Bool) : (s.setRun b).sp = s.sp := rfl
@[simp] theorem setRun_lr (s : State) (b : Bool) : (s.setRun b).lr = s.lr := rfl
@[simp] theorem setRun_pc (s : State) (b : Bool) : (s.setRun b).pc = s.pc := rfl
@[simp] theorem setRun_flags (s : State) (b : Bool) : (s.setRun b).flags = s.flags := rfl
@[simp] theorem setRun_run (s : State) (b : Bool) : (s.setRun b).run = b := rfl
@[simp] theorem setRun_ir (s : State) (b : Bool) : (s.setRun b).ir = s.ir := rfl
@[simp] theorem setRun_steps (s : State) (b : Bool) : (s.setRun b).steps = s.steps := rfl
@[simp] theorem setRun_fsm (s : State) (b : Bool) : (s.setRun b).fsm = s.fsm := rfl
@[simp] theorem setRun_status (s : State) (b : Bool) : (s.setRun b).status = s.status := rfl
@[simp] theorem setRun_mem (s : State) (b : Bool) : (s.setRun b).mem = s.mem := rfl
@[simp] theorem setRun_romLen (s : State) (b : Bool) : (s.setRun b).romLen = s.romLen := rfl
@[simp] theorem setRun_fault (s : State) (b : Bool) : (s.setRun b).fault = s.fault := rfl

@[simp] theorem sequence_params (s : State) (src : PcSource) : (s.sequence src).params = s.params := rfl
@[simp] theorem sequence_regs (s : State) (src : PcSource) : (s.sequence src).regs = s.regs := rfl
@[simp] theorem sequence_sp (s : State) (src : PcSource) : (s.sequence src).sp = s.sp := rfl
@[simp] theorem sequence_lr (s : State) (src : PcSource) : (s.sequence src).lr = s.lr := rfl
@[simp] theorem sequence_pc (s : State) (src : PcSource) : (s.sequence src).pc = src.next s.pc := rfl
@[simp] theorem sequence_flags (s : State) (src : PcSource) : (s.sequence src).flags = s.flags := rfl
@[simp] theorem sequence_run (s : State) (src : PcSource) : (s.sequence src).run = s.run := rfl
@[simp] theorem sequence_ir (s : State) (src : PcSource) : (s.sequence src).ir = s.ir := rfl
@[simp] theorem sequence_steps (s : State) (src : PcSource) : (s.sequence src).steps = s.steps := rfl
@[simp] theorem sequence_fsm (s : State) (src : PcSource) : (s.sequence src).fsm = s.fsm := rfl
@[simp] theorem sequence_status (s : State) (src : PcSource) : (s.sequence src).status = s.status := rfl
@[simp] theorem sequence_mem (s : State) (src : PcSource) : (s.sequence src).mem = s.mem := rfl
@[simp] theorem sequence_romLen (s : State) (src : PcSource) : (s.sequence src).romLen = s.romLen := rfl
@[simp] theorem sequence_fault (s : State) (src : PcSource) : (s.sequence src).fault = s.fault := rfl

@[simp] theorem raised_params (s : State) (e : CoreError) : (s.raised e).params = s.params := rfl
@[simp] theorem raised_regs (s : State) (e : CoreError) : (s.raised e).regs = s.regs := rfl
@[simp] theorem raised_sp (s : State) (e : CoreError) : (s.raised e).sp = s.sp := rfl
@[simp] theorem raised_lr (s : State) (e : CoreError) : (s.raised e).lr = s.lr := rfl
@[simp] theorem raised_pc (s : State) (e : CoreError) : (s.raised e).pc = s.pc := rfl
@[simp] theorem raised_flags (s : State) (e : CoreError) : (s.raised e).flags = s.flags := rfl
@[simp] theorem raised_run (s : State) (e : CoreError) : (s.raised e).run = s.run := rfl
@[simp] theorem raised_ir (s : State) (e : CoreError) : (s.raised e).ir = s.ir := rfl
@[simp] theorem raised_steps (s : State) (e : CoreError) : (s.raised e).steps = s.steps := rfl
@[simp] theorem raised_fsm (s : State) (e : CoreError) : (s.raised e).fsm = .fault := rfl
@[simp] theorem raised_status (s : State) (e : CoreError) : (s.raised e).status = e.status := rfl
@[simp] theorem raised_mem (s : State) (e : CoreError) : (s.raised e).mem = s.mem := rfl
@[simp] theorem raised_romLen (s : State) (e : CoreError) : (s.raised e).romLen = s.romLen := rfl
@[simp] theorem raised_fault (s : State) (e : CoreError) : (s.raised e).fault = some (faultRecord e s) := rfl

@[simp] theorem fetched_params (s : State) : (s.fetched).params = s.params := rfl
@[simp] theorem fetched_regs (s : State) : (s.fetched).regs = s.regs := rfl
@[simp] theorem fetched_sp (s : State) : (s.fetched).sp = s.sp := rfl
@[simp] theorem fetched_lr (s : State) : (s.fetched).lr = s.lr := rfl
@[simp] theorem fetched_pc (s : State) : (s.fetched).pc = s.pc := rfl
@[simp] theorem fetched_flags (s : State) : (s.fetched).flags = s.flags := rfl
@[simp] theorem fetched_run (s : State) : (s.fetched).run = s.run := rfl
@[simp] theorem fetched_ir (s : State) : (s.fetched).ir = s.fetchWord := rfl
@[simp] theorem fetched_steps (s : State) : (s.fetched).steps = s.steps := rfl
@[simp] theorem fetched_fsm (s : State) : (s.fetched).fsm = s.fsm := rfl
@[simp] theorem fetched_status (s : State) : (s.fetched).status = s.status := rfl
@[simp] theorem fetched_mem (s : State) : (s.fetched).mem = s.mem := rfl
@[simp] theorem fetched_romLen (s : State) : (s.fetched).romLen = s.romLen := rfl
@[simp] theorem fetched_fault (s : State) : (s.fetched).fault = s.fault := rfl

@[simp] theorem outOfBudget_params (s : State) : (s.outOfBudget).params = s.params := rfl
@[simp] theorem outOfBudget_regs (s : State) : (s.outOfBudget).regs = s.regs := rfl
@[simp] theorem outOfBudget_sp (s : State) : (s.outOfBudget).sp = s.sp := rfl
@[simp] theorem outOfBudget_lr (s : State) : (s.outOfBudget).lr = s.lr := rfl
@[simp] theorem outOfBudget_pc (s : State) : (s.outOfBudget).pc = s.pc := rfl
@[simp] theorem outOfBudget_flags (s : State) : (s.outOfBudget).flags = s.flags := rfl
@[simp] theorem outOfBudget_run (s : State) : (s.outOfBudget).run = s.run := rfl
@[simp] theorem outOfBudget_ir (s : State) : (s.outOfBudget).ir = s.ir := rfl
@[simp] theorem outOfBudget_steps (s : State) : (s.outOfBudget).steps = s.steps := rfl
@[simp] theorem outOfBudget_fsm (s : State) : (s.outOfBudget).fsm = .budget := rfl
@[simp] theorem outOfBudget_status (s : State) : (s.outOfBudget).status = .budgetExceeded := rfl
@[simp] theorem outOfBudget_mem (s : State) : (s.outOfBudget).mem = s.mem := rfl
@[simp] theorem outOfBudget_romLen (s : State) : (s.outOfBudget).romLen = s.romLen := rfl
@[simp] theorem outOfBudget_fault (s : State) : (s.outOfBudget).fault = s.fault := rfl

@[simp] theorem placeAtPc_params (s : State) (ws : List Word) : (s.placeAtPc ws).params = s.params := rfl
@[simp] theorem placeAtPc_regs (s : State) (ws : List Word) : (s.placeAtPc ws).regs = s.regs := rfl
@[simp] theorem placeAtPc_sp (s : State) (ws : List Word) : (s.placeAtPc ws).sp = s.sp := rfl
@[simp] theorem placeAtPc_lr (s : State) (ws : List Word) : (s.placeAtPc ws).lr = s.lr := rfl
@[simp] theorem placeAtPc_pc (s : State) (ws : List Word) : (s.placeAtPc ws).pc = s.pc := rfl
@[simp] theorem placeAtPc_flags (s : State) (ws : List Word) : (s.placeAtPc ws).flags = s.flags := rfl
@[simp] theorem placeAtPc_run (s : State) (ws : List Word) : (s.placeAtPc ws).run = s.run := rfl
@[simp] theorem placeAtPc_ir (s : State) (ws : List Word) : (s.placeAtPc ws).ir = s.ir := rfl
@[simp] theorem placeAtPc_steps (s : State) (ws : List Word) : (s.placeAtPc ws).steps = s.steps := rfl
@[simp] theorem placeAtPc_fsm (s : State) (ws : List Word) : (s.placeAtPc ws).fsm = s.fsm := rfl
@[simp] theorem placeAtPc_status (s : State) (ws : List Word) : (s.placeAtPc ws).status = s.status := rfl
@[simp] theorem placeAtPc_mem (s : State) (ws : List Word) : (s.placeAtPc ws).mem = s.mem.write s.pc.toNat (ws.headD 0) := rfl
@[simp] theorem placeAtPc_romLen (s : State) (ws : List Word) : (s.placeAtPc ws).romLen = s.romLen := rfl
@[simp] theorem placeAtPc_fault (s : State) (ws : List Word) : (s.placeAtPc ws).fault = s.fault := rfl

@[simp] theorem continued_params (s : State) : s.continued.params = s.params := by
  unfold State.continued; split <;> rfl
@[simp] theorem continued_regs (s : State) : s.continued.regs = s.regs := by
  unfold State.continued; split <;> rfl
@[simp] theorem continued_sp (s : State) : s.continued.sp = s.sp := by
  unfold State.continued; split <;> rfl
@[simp] theorem continued_lr (s : State) : s.continued.lr = s.lr := by
  unfold State.continued; split <;> rfl
@[simp] theorem continued_pc (s : State) : s.continued.pc = s.pc := by
  unfold State.continued; split <;> rfl
@[simp] theorem continued_flags (s : State) : s.continued.flags = s.flags := by
  unfold State.continued; split <;> rfl
@[simp] theorem continued_run (s : State) : s.continued.run = s.run := by
  unfold State.continued; split <;> rfl
@[simp] theorem continued_ir (s : State) : s.continued.ir = s.ir := by
  unfold State.continued; split <;> rfl
@[simp] theorem continued_steps (s : State) : s.continued.steps = s.steps + 1 := by
  unfold State.continued; split <;> rfl
@[simp] theorem continued_fsm (s : State) : s.continued.fsm = if s.run then .fetch else .halted := by
  unfold State.continued; split <;> rfl
@[simp] theorem continued_status (s : State) : s.continued.status = if s.run then s.status else .halt := by
  unfold State.continued; split <;> rfl
@[simp] theorem continued_mem (s : State) : s.continued.mem = s.mem := by
  unfold State.continued; split <;> rfl
@[simp] theorem continued_romLen (s : State) : s.continued.romLen = s.romLen := by
  unfold State.continued; split <;> rfl
@[simp] theorem continued_fault (s : State) : s.continued.fault = s.fault := by
  unfold State.continued; split <;> rfl

/-! The observations `reg` and `word` after each update. -/

theorem reg_setReg (s : State) (r q : Reg) (v : Word) : (s.setReg r v).reg q = if q = r then v else s.reg q := by
  unfold State.reg State.setReg
  simp only [Vector.get_eq_getElem, Vector.getElem_set]
  simp only [Fin.ext_iff, eq_comm]

@[simp] theorem reg_setReg_self (s : State) (r : Reg) (v : Word) : (s.setReg r v).reg r = v := by
  rw [reg_setReg, if_pos rfl]

theorem reg_setReg_of_ne (s : State) {r q : Reg} (v : Word) (h : q ≠ r) : (s.setReg r v).reg q = s.reg q := by
  rw [reg_setReg, if_neg h]

@[simp] theorem word_setReg (s : State) (r : Reg) (v : Word) (a : Nat) : (s.setReg r v).word a = s.word a := rfl
@[simp] theorem reg_setSp (s : State) (v : Word) (q : Reg) : (s.setSp v).reg q = s.reg q := rfl
@[simp] theorem word_setSp (s : State) (v : Word) (a : Nat) : (s.setSp v).word a = s.word a := rfl
@[simp] theorem reg_setFlags (s : State) (f : Flag) (q : Reg) : (s.setFlags f).reg q = s.reg q := rfl
@[simp] theorem word_setFlags (s : State) (f : Flag) (a : Nat) : (s.setFlags f).word a = s.word a := rfl
@[simp] theorem reg_flagged (s : State) (r : Word) (q : Reg) : (s.flagged r).reg q = s.reg q := rfl
@[simp] theorem word_flagged (s : State) (r : Word) (a : Nat) : (s.flagged r).word a = s.word a := rfl
@[simp] theorem reg_setRun (s : State) (b : Bool) (q : Reg) : (s.setRun b).reg q = s.reg q := rfl
@[simp] theorem word_setRun (s : State) (b : Bool) (a : Nat) : (s.setRun b).word a = s.word a := rfl
@[simp] theorem reg_sequence (s : State) (src : PcSource) (q : Reg) : (s.sequence src).reg q = s.reg q := rfl
@[simp] theorem word_sequence (s : State) (src : PcSource) (a : Nat) : (s.sequence src).word a = s.word a := rfl
@[simp] theorem reg_raised (s : State) (e : CoreError) (q : Reg) : (s.raised e).reg q = s.reg q := rfl
@[simp] theorem word_raised (s : State) (e : CoreError) (a : Nat) : (s.raised e).word a = s.word a := rfl
@[simp] theorem reg_fetched (s : State) (q : Reg) : (s.fetched).reg q = s.reg q := rfl
@[simp] theorem word_fetched (s : State) (a : Nat) : (s.fetched).word a = s.word a := rfl
@[simp] theorem reg_outOfBudget (s : State) (q : Reg) : (s.outOfBudget).reg q = s.reg q := rfl
@[simp] theorem word_outOfBudget (s : State) (a : Nat) : (s.outOfBudget).word a = s.word a := rfl
@[simp] theorem reg_placeAtPc (s : State) (ws : List Word) (q : Reg) : (s.placeAtPc ws).reg q = s.reg q := rfl
@[simp] theorem reg_continued (s : State) (q : Reg) : s.continued.reg q = s.reg q := by
  unfold State.continued; split <;> rfl
@[simp] theorem word_continued (s : State) (a : Nat) : s.continued.word a = s.word a := by
  unfold State.continued; split <;> rfl
@[simp] theorem snapshot_pc (s : State) : s.snapshot.pc = s.pc := rfl
@[simp] theorem snapshot_regs (s : State) : s.snapshot.regs = s.regs := rfl
@[simp] theorem snapshot_sp (s : State) : s.snapshot.sp = s.sp := rfl
@[simp] theorem snapshot_lr (s : State) : s.snapshot.lr = s.lr := rfl
@[simp] theorem snapshot_flags (s : State) : s.snapshot.flags = s.flags := rfl
@[simp] theorem snapshot_ir (s : State) : s.snapshot.ir = s.ir := rfl
@[simp] theorem machineSnapshot_toSnapshot (s : State) : s.machineSnapshot.toSnapshot = s.snapshot := rfl
@[simp] theorem machineSnapshot_run (s : State) : s.machineSnapshot.run = s.run := rfl
@[simp] theorem machineSnapshot_steps (s : State) : s.machineSnapshot.steps = s.steps := rfl
@[simp] theorem machineSnapshot_mem (s : State) : s.machineSnapshot.mem = s.mem := rfl

end Sys2Proof.Machine
end

