-- ==== Sys2Proof/Laws/Ops.lean ====
section
/-! SUPPORT. One lemma per shared operation that says once everything it can do, for later proofs to cite instead of
unfolding it. -/

namespace Sys2Proof.Machine

theorem memRead_of_lt (s : State) {a : Nat} (h : a < Config.memWords) : memRead s a = .ok (s.word a) := by
  simp [memRead, State.word, Nat.not_le.2 h]

theorem memRead_of_ge (s : State) {a : Nat} (h : Config.memWords ≤ a) : memRead s a = .error (.address a) := by
  simp [memRead, h]

theorem memWrite_of_lt (s : State) {a : Nat} (v : Word) (h : a < Config.memWords) :
    memWrite s a v = .ok { s with mem := s.mem.write a v } := by
  simp [memWrite, Nat.not_le.2 h]

theorem memWrite_of_ge (s : State) {a : Nat} (v : Word) (h : Config.memWords ≤ a) :
    memWrite s a v = .error (.address a) := by
  simp [memWrite, h]

theorem toNat_lt_memWords (w : Word) : w.toNat < Config.memWords := w.isLt

theorem effectiveAddress_cases {mode : Config.EaOverflow} {base off : Word} {r : Except CoreError Nat}
    (h : effectiveAddress mode base off = r) :
    (base.toNat + off.toNat ≤ 0xFFFF ∧ r = .ok (base.toNat + off.toNat)) ∨
    (0xFFFF < base.toNat + off.toNat ∧ mode = .wrap ∧ r = .ok (base.toNat + off.toNat - 65536)) ∨
    (0xFFFF < base.toNat + off.toNat ∧ mode = .fault ∧ r = .error (.address (base.toNat + off.toNat))) := by
  unfold effectiveAddress at h
  simp only at h
  split at h
  · exact .inl ⟨by assumption, h.symm⟩
  · cases mode
    · exact .inr (.inl ⟨by omega, rfl, h.symm⟩)
    · exact .inr (.inr ⟨by omega, rfl, h.symm⟩)

theorem effectiveAddress_ok_lt {mode : Config.EaOverflow} {base off : Word} {a : Nat}
    (h : effectiveAddress mode base off = .ok a) : a < Config.memWords := by
  have hb := base.isLt
  have ho := off.isLt
  unfold Config.memWords
  rcases effectiveAddress_cases h with ⟨hs, h⟩ | ⟨hs, _, h⟩ | ⟨_, _, h⟩
  · injection h with h; omega
  · injection h with h; omega
  · cases h

/-- Above 0xFFFF the wrapped sum is the 16-bit sum, so under WRAP the effective address is always it (R64). -/
theorem effectiveAddress_wrap (base off : Word) : effectiveAddress .wrap base off = .ok (base + off).toNat := by
  have hb := base.isLt
  have ho := off.isLt
  rcases effectiveAddress_cases (rfl : effectiveAddress .wrap base off = _) with ⟨hs, h⟩ | ⟨hs, _, h⟩ | ⟨_, hm, _⟩
  · rw [h, BitVec.toNat_add, Nat.mod_eq_of_lt (by omega)]
  · rw [h, BitVec.toNat_add, Nat.mod_eq_sub_mod (by omega), Nat.mod_eq_of_lt (by omega)]
  · cases hm

theorem effectiveAddress_of_le {mode : Config.EaOverflow} {base off : Word}
    (h : base.toNat + off.toNat ≤ 0xFFFF) : effectiveAddress mode base off = .ok (base.toNat + off.toNat) := by
  simp [effectiveAddress, h]

theorem effectiveAddress_fault {base off : Word} (h : 0xFFFF < base.toNat + off.toNat) :
    effectiveAddress .fault base off = .error (.address (base.toNat + off.toNat)) := by
  unfold effectiveAddress
  simp only
  rw [if_neg (by omega)]

theorem addrPush_cases (s : State) :
    (s.sp ≤ s.params.stackFloor ∧ addrPush s = .error (.stack .overflow s.sp)) ∨
    (s.params.stackFloor < s.sp ∧ addrPush s = .ok (s.sp - 1).toNat) := by
  unfold addrPush
  by_cases h : s.sp ≤ s.params.stackFloor
  · exact .inl ⟨h, if_pos h⟩
  · exact .inr ⟨BitVec.not_le.1 h, if_neg h⟩

theorem addrPop_cases (s : State) :
    (Config.stackBase ≤ s.sp ∧ addrPop s = .error (.stack .underflow s.sp)) ∨
    (s.sp < Config.stackBase ∧ addrPop s = .ok s.sp.toNat) := by
  unfold addrPop
  by_cases h : Config.stackBase ≤ s.sp
  · exact .inl ⟨h, if_pos h⟩
  · exact .inr ⟨BitVec.not_le.1 h, if_neg h⟩

/-- Everything a load can do: raise the address's error, raise the controller's, or load and advance. -/
theorem loadFrom_cases (d : Reg) (addr : Except CoreError Nat) (s : State) :
    (∃ e, addr = .error e ∧ loadFrom d addr s = .next (s.raised e)) ∨
    (∃ a, addr = .ok a ∧ Config.memWords ≤ a ∧ loadFrom d addr s = .next (s.raised (.address a))) ∨
    (∃ a, addr = .ok a ∧ a < Config.memWords ∧
      loadFrom d addr s = .next ((s.setReg d (s.word a)).sequence .inc)) := by
  cases addr with
  | error e => exact .inl ⟨e, rfl, rfl⟩
  | ok a =>
    rcases Nat.lt_or_ge a Config.memWords with h | h
    · exact .inr (.inr ⟨a, rfl, h, by simp [loadFrom, memRead_of_lt s h]⟩)
    · exact .inr (.inl ⟨a, rfl, h, by simp [loadFrom, memRead_of_ge s h, raise]⟩)

/-- Everything a store can do. -/
theorem storeTo_cases (v : Word) (addr : Except CoreError Nat) (s : State) :
    (∃ e, addr = .error e ∧ storeTo v addr s = .next (s.raised e)) ∨
    (∃ a, addr = .ok a ∧ Config.memWords ≤ a ∧ storeTo v addr s = .next (s.raised (.address a))) ∨
    (∃ a, addr = .ok a ∧ a < Config.memWords ∧
      storeTo v addr s = .next ((State.sequence { s with mem := s.mem.write a v } .inc))) := by
  cases addr with
  | error e => exact .inl ⟨e, rfl, rfl⟩
  | ok a =>
    rcases Nat.lt_or_ge a Config.memWords with h | h
    · exact .inr (.inr ⟨a, rfl, h, by simp [storeTo, memWrite_of_lt s v h]⟩)
    · exact .inr (.inl ⟨a, rfl, h, by simp [storeTo, memWrite_of_ge s v h, raise]⟩)

/-- Everything PUSH can do. The controller's guard cannot fire, since SP - 1 is a 16-bit value. -/
theorem pushWord_cases (v : Word) (s : State) :
    (s.sp ≤ s.params.stackFloor ∧ pushWord v s = .next (s.raised (.stack .overflow s.sp))) ∨
    (s.params.stackFloor < s.sp ∧
      pushWord v s =
        .next ((State.setSp { s with mem := s.mem.write (s.sp - 1).toNat v } (s.sp - 1)).sequence .inc)) := by
  rcases addrPush_cases s with ⟨h, ha⟩ | ⟨h, ha⟩
  · exact .inl ⟨h, by simp [pushWord, ha, raise]⟩
  · exact .inr ⟨h, by simp only [pushWord, ha, memWrite_of_lt s v (toNat_lt_memWords (s.sp - 1))]⟩

/-- Everything POP can do. -/
theorem popWord_cases (d : Reg) (s : State) :
    (Config.stackBase ≤ s.sp ∧ popWord d s = .next (s.raised (.stack .underflow s.sp))) ∨
    (s.sp < Config.stackBase ∧
      popWord d s = .next (((s.setReg d (s.word s.sp.toNat)).setSp (s.sp + 1)).sequence .inc)) := by
  rcases addrPop_cases s with ⟨h, ha⟩ | ⟨h, ha⟩
  · exact .inl ⟨h, by simp [popWord, ha, raise]⟩
  · exact .inr ⟨h, by simp only [popWord, ha, memRead_of_lt s (toNat_lt_memWords s.sp)]⟩

/-- Everything JMP can do. -/
theorem jumpThrough_cases (addr : Except CoreError Nat) (s : State) :
    (∃ e, addr = .error e ∧ jumpThrough addr s = .next (s.raised e)) ∨
    (∃ a, addr = .ok a ∧ Config.memWords ≤ a ∧ jumpThrough addr s = .next (s.raised (.address a))) ∨
    (∃ a, addr = .ok a ∧ a < Config.memWords ∧
      jumpThrough addr s = .next (s.sequence (.mem (s.word a)))) := by
  cases addr with
  | error e => exact .inl ⟨e, rfl, rfl⟩
  | ok a =>
    rcases Nat.lt_or_ge a Config.memWords with h | h
    · exact .inr (.inr ⟨a, rfl, h, by simp [jumpThrough, memRead_of_lt s h]⟩)
    · exact .inr (.inl ⟨a, rfl, h, by simp [jumpThrough, memRead_of_ge s h, raise]⟩)

/-- The three values of the flag derivation (R33). -/
theorem flagsOf_cases (mode : Config.FlagMode) (r : Word) :
    (r = 0 ∧ flagsOf mode r = .z) ∨ (r ≠ 0 ∧ mode = .signed ∧ r.msb = true ∧ flagsOf mode r = .n) ∨
    (r ≠ 0 ∧ (mode = .sourceLiteral ∨ r.msb = false) ∧ flagsOf mode r = .p) := by
  unfold flagsOf
  by_cases h : r = 0
  · exact .inl ⟨h, if_pos h⟩
  · cases mode <;> cases hm : r.msb <;> simp <;> exact em _

/-- Everything the end of a cycle can do with a next state (R204, R245). -/
theorem endCycle_next (t : State) :
    (t.fsm = .fault ∧ endCycle (.next t) = (.next t, none)) ∨
    (t.fsm ≠ .fault ∧ endCycle (.next t) = (.next t.continued, some t.snapshot)) := by
  by_cases h : t.fsm = .fault
  · exact .inl ⟨h, by simp [endCycle, h]⟩
  · exact .inr ⟨h, by simp [endCycle, h]⟩

/-- Everything the load interface can do (R231). -/
theorem load_cases (program : List Word) (s : State) :
    (s.beforeFirstFetch = false ∧ load program s = .error .pastFirstFetch) ∨
    (s.beforeFirstFetch = true ∧ s.params.romCapacity < program.length ∧
      load program s = .error (.tooLong program.length s.params.romCapacity)) ∨
    (s.beforeFirstFetch = true ∧ program.length ≤ s.params.romCapacity ∧
      load program s = .ok { s with mem := s.mem.writeFrom 0 program, romLen := program.length }) := by
  unfold load
  cases hb : s.beforeFirstFetch
  · exact .inl ⟨rfl, by simp⟩
  · rcases Nat.lt_or_ge s.params.romCapacity program.length with h | h
    · exact .inr (.inl ⟨rfl, h, by simp [h]⟩)
    · exact .inr (.inr ⟨rfl, h, by simp [Nat.not_lt.2 h]⟩)

end Sys2Proof.Machine
end

