-- ==== Sys2Proof/Laws/PerInstr.lean ====
section
/-! SUPPORT. Statements about every instruction, one lemma per constructor. -/

namespace Sys2Proof

/-- The encoding of an instruction is selected by the row of the match and mask table that bears its form (R108). -/
def Laws.EncodingMatchesRow.Statement (i : Instr) : Prop :=
  ∃ r ∈ formTable, r.form = i.form ∧ r.selects (encode i) = true

/-- How each lemma of the family is proved: the row, and that no field of the encoding reaches into its mask. -/
theorem Laws.encodingMatchesRow_of {i : Instr} (r : FormRow) (hr : r ∈ formTable) (hf : r.form = i.form)
    (h : encode i &&& r.mask = r.pattern) : Laws.EncodingMatchesRow.Statement i :=
  ⟨r, hr, hf, by simp [FormRow.selects, h]⟩

theorem Laws.putReg_and_mask {lo : Nat} (r : Reg) (mask : Word) (h : ∀ i < 3, mask.getLsbD (lo + i) = false) :
    putReg lo r &&& mask = 0 :=
  field_and_mask _ mask h

theorem Laws.EncodingMatchesRow.b (imm : BitVec 12) : Laws.EncodingMatchesRow.Statement (.b imm) := by
  refine Laws.encodingMatchesRow_of ⟨.b, "B", 0xF000#16, 0x0000#16, 0x0000#16⟩ (by simp [formTable]) rfl ?_
  simp only [encode, or_and_mask]
  rw [field_and_mask _ _ (by decide)]
  decide

theorem Laws.EncodingMatchesRow.beq (imm : BitVec 11) : Laws.EncodingMatchesRow.Statement (.beq imm) := by
  refine Laws.encodingMatchesRow_of ⟨.beq, "BEQ", 0xF800#16, 0x1000#16, 0x0000#16⟩ (by simp [formTable]) rfl ?_
  simp only [encode, or_and_mask]
  rw [field_and_mask _ _ (by decide)]
  decide

theorem Laws.EncodingMatchesRow.bne (imm : BitVec 11) : Laws.EncodingMatchesRow.Statement (.bne imm) := by
  refine Laws.encodingMatchesRow_of ⟨.bne, "BNE", 0xF800#16, 0x1800#16, 0x0000#16⟩ (by simp [formTable]) rfl ?_
  simp only [encode, or_and_mask]
  rw [field_and_mask _ _ (by decide)]
  decide

theorem Laws.EncodingMatchesRow.bgt (imm : BitVec 11) : Laws.EncodingMatchesRow.Statement (.bgt imm) := by
  refine Laws.encodingMatchesRow_of ⟨.bgt, "BGT", 0xF800#16, 0x2000#16, 0x0000#16⟩ (by simp [formTable]) rfl ?_
  simp only [encode, or_and_mask]
  rw [field_and_mask _ _ (by decide)]
  decide

theorem Laws.EncodingMatchesRow.blt (imm : BitVec 11) : Laws.EncodingMatchesRow.Statement (.blt imm) := by
  refine Laws.encodingMatchesRow_of ⟨.blt, "BLT", 0xF800#16, 0x2800#16, 0x0000#16⟩ (by simp [formTable]) rfl ?_
  simp only [encode, or_and_mask]
  rw [field_and_mask _ _ (by decide)]
  decide

theorem Laws.EncodingMatchesRow.ld (a : Reg) (b : Reg) : Laws.EncodingMatchesRow.Statement (.ld a b) := by
  refine Laws.encodingMatchesRow_of ⟨.ld, "LD", 0xFC00#16, 0x3000#16, 0x000F#16⟩ (by simp [formTable]) rfl ?_
  simp only [encode, or_and_mask]
  rw [Laws.putReg_and_mask _ _ (by decide), Laws.putReg_and_mask _ _ (by decide)]
  decide

theorem Laws.EncodingMatchesRow.ldx (a : Reg) (b : Reg) (c : Reg) : Laws.EncodingMatchesRow.Statement (.ldx a b c) := by
  refine Laws.encodingMatchesRow_of ⟨.ldx, "LDX", 0xFC00#16, 0x3400#16, 0x0001#16⟩ (by simp [formTable]) rfl ?_
  simp only [encode, or_and_mask]
  rw [Laws.putReg_and_mask _ _ (by decide), Laws.putReg_and_mask _ _ (by decide), Laws.putReg_and_mask _ _ (by decide)]
  decide

theorem Laws.EncodingMatchesRow.ldd (a : Reg) (b : Reg) (imm : BitVec 4) : Laws.EncodingMatchesRow.Statement (.ldd a b imm) := by
  refine Laws.encodingMatchesRow_of ⟨.ldd, "LDD", 0xFC00#16, 0x3800#16, 0x0000#16⟩ (by simp [formTable]) rfl ?_
  simp only [encode, or_and_mask]
  rw [Laws.putReg_and_mask _ _ (by decide), Laws.putReg_and_mask _ _ (by decide), field_and_mask _ _ (by decide)]
  decide

theorem Laws.EncodingMatchesRow.ldi (a : Reg) (imm : BitVec 7) : Laws.EncodingMatchesRow.Statement (.ldi a imm) := by
  refine Laws.encodingMatchesRow_of ⟨.ldi, "LDI", 0xFC00#16, 0x3C00#16, 0x0000#16⟩ (by simp [formTable]) rfl ?_
  simp only [encode, or_and_mask]
  rw [Laws.putReg_and_mask _ _ (by decide), field_and_mask _ _ (by decide)]
  decide

theorem Laws.EncodingMatchesRow.st (a : Reg) (b : Reg) : Laws.EncodingMatchesRow.Statement (.st a b) := by
  refine Laws.encodingMatchesRow_of ⟨.st, "ST", 0xFC00#16, 0x4000#16, 0x000F#16⟩ (by simp [formTable]) rfl ?_
  simp only [encode, or_and_mask]
  rw [Laws.putReg_and_mask _ _ (by decide), Laws.putReg_and_mask _ _ (by decide)]
  decide

theorem Laws.EncodingMatchesRow.stx (a : Reg) (b : Reg) (c : Reg) : Laws.EncodingMatchesRow.Statement (.stx a b c) := by
  refine Laws.encodingMatchesRow_of ⟨.stx, "STX", 0xFC00#16, 0x4400#16, 0x0001#16⟩ (by simp [formTable]) rfl ?_
  simp only [encode, or_and_mask]
  rw [Laws.putReg_and_mask _ _ (by decide), Laws.putReg_and_mask _ _ (by decide), Laws.putReg_and_mask _ _ (by decide)]
  decide

theorem Laws.EncodingMatchesRow.std (a : Reg) (b : Reg) (imm : BitVec 4) : Laws.EncodingMatchesRow.Statement (.std a b imm) := by
  refine Laws.encodingMatchesRow_of ⟨.std, "STD", 0xFC00#16, 0x4800#16, 0x0000#16⟩ (by simp [formTable]) rfl ?_
  simp only [encode, or_and_mask]
  rw [Laws.putReg_and_mask _ _ (by decide), Laws.putReg_and_mask _ _ (by decide), field_and_mask _ _ (by decide)]
  decide

theorem Laws.EncodingMatchesRow.reserved (imm : BitVec 10) : Laws.EncodingMatchesRow.Statement (.reserved imm) := by
  refine Laws.encodingMatchesRow_of ⟨.reserved, "(reserved)", 0xFC00#16, 0x4C00#16, 0x03FF#16⟩ (by simp [formTable]) rfl ?_
  simp only [encode, or_and_mask]
  rw [field_and_mask _ _ (by decide)]
  decide

theorem Laws.EncodingMatchesRow.mov (a : Reg) (b : Reg) : Laws.EncodingMatchesRow.Statement (.mov a b) := by
  refine Laws.encodingMatchesRow_of ⟨.mov, "MOV", 0xF800#16, 0x5000#16, 0x001F#16⟩ (by simp [formTable]) rfl ?_
  simp only [encode, or_and_mask]
  rw [Laws.putReg_and_mask _ _ (by decide), Laws.putReg_and_mask _ _ (by decide)]
  decide

theorem Laws.EncodingMatchesRow.movi (a : Reg) (imm : BitVec 8) : Laws.EncodingMatchesRow.Statement (.movi a imm) := by
  refine Laws.encodingMatchesRow_of ⟨.movi, "MOVI", 0xF800#16, 0x5800#16, 0x0000#16⟩ (by simp [formTable]) rfl ?_
  simp only [encode, or_and_mask]
  rw [Laws.putReg_and_mask _ _ (by decide), field_and_mask _ _ (by decide)]
  decide

theorem Laws.EncodingMatchesRow.and (a : Reg) (b : Reg) : Laws.EncodingMatchesRow.Statement (.and a b) := by
  refine Laws.encodingMatchesRow_of ⟨.and, "AND", 0xF801#16, 0x6000#16, 0x001E#16⟩ (by simp [formTable]) rfl ?_
  simp only [encode, or_and_mask]
  rw [Laws.putReg_and_mask _ _ (by decide), Laws.putReg_and_mask _ _ (by decide)]
  decide

theorem Laws.EncodingMatchesRow.andi (a : Reg) (imm : BitVec 7) : Laws.EncodingMatchesRow.Statement (.andi a imm) := by
  refine Laws.encodingMatchesRow_of ⟨.andi, "ANDI", 0xF801#16, 0x6001#16, 0x0000#16⟩ (by simp [formTable]) rfl ?_
  simp only [encode, or_and_mask]
  rw [Laws.putReg_and_mask _ _ (by decide), field_and_mask _ _ (by decide)]
  decide

theorem Laws.EncodingMatchesRow.and3 (a : Reg) (b : Reg) (c : Reg) : Laws.EncodingMatchesRow.Statement (.and3 a b c) := by
  refine Laws.encodingMatchesRow_of ⟨.and3, "AND3", 0xF801#16, 0x6800#16, 0x0002#16⟩ (by simp [formTable]) rfl ?_
  simp only [encode, or_and_mask]
  rw [Laws.putReg_and_mask _ _ (by decide), Laws.putReg_and_mask _ _ (by decide), Laws.putReg_and_mask _ _ (by decide)]
  decide

theorem Laws.EncodingMatchesRow.and3i (a : Reg) (b : Reg) (imm : BitVec 4) : Laws.EncodingMatchesRow.Statement (.and3i a b imm) := by
  refine Laws.encodingMatchesRow_of ⟨.and3i, "AND3I", 0xF801#16, 0x6801#16, 0x0000#16⟩ (by simp [formTable]) rfl ?_
  simp only [encode, or_and_mask]
  rw [Laws.putReg_and_mask _ _ (by decide), Laws.putReg_and_mask _ _ (by decide), field_and_mask _ _ (by decide)]
  decide

theorem Laws.EncodingMatchesRow.or (a : Reg) (b : Reg) : Laws.EncodingMatchesRow.Statement (.or a b) := by
  refine Laws.encodingMatchesRow_of ⟨.or, "OR", 0xF801#16, 0x7000#16, 0x001E#16⟩ (by simp [formTable]) rfl ?_
  simp only [encode, or_and_mask]
  rw [Laws.putReg_and_mask _ _ (by decide), Laws.putReg_and_mask _ _ (by decide)]
  decide

theorem Laws.EncodingMatchesRow.ori (a : Reg) (imm : BitVec 7) : Laws.EncodingMatchesRow.Statement (.ori a imm) := by
  refine Laws.encodingMatchesRow_of ⟨.ori, "ORI", 0xF801#16, 0x7001#16, 0x0000#16⟩ (by simp [formTable]) rfl ?_
  simp only [encode, or_and_mask]
  rw [Laws.putReg_and_mask _ _ (by decide), field_and_mask _ _ (by decide)]
  decide

theorem Laws.EncodingMatchesRow.or3 (a : Reg) (b : Reg) (c : Reg) : Laws.EncodingMatchesRow.Statement (.or3 a b c) := by
  refine Laws.encodingMatchesRow_of ⟨.or3, "OR3", 0xF801#16, 0x7800#16, 0x0002#16⟩ (by simp [formTable]) rfl ?_
  simp only [encode, or_and_mask]
  rw [Laws.putReg_and_mask _ _ (by decide), Laws.putReg_and_mask _ _ (by decide), Laws.putReg_and_mask _ _ (by decide)]
  decide

theorem Laws.EncodingMatchesRow.or3i (a : Reg) (b : Reg) (imm : BitVec 4) : Laws.EncodingMatchesRow.Statement (.or3i a b imm) := by
  refine Laws.encodingMatchesRow_of ⟨.or3i, "OR3I", 0xF801#16, 0x7801#16, 0x0000#16⟩ (by simp [formTable]) rfl ?_
  simp only [encode, or_and_mask]
  rw [Laws.putReg_and_mask _ _ (by decide), Laws.putReg_and_mask _ _ (by decide), field_and_mask _ _ (by decide)]
  decide

theorem Laws.EncodingMatchesRow.not (a : Reg) : Laws.EncodingMatchesRow.Statement (.not a) := by
  refine Laws.encodingMatchesRow_of ⟨.not, "NOT", 0xF000#16, 0x8000#16, 0x08FF#16⟩ (by simp [formTable]) rfl ?_
  simp only [encode, or_and_mask]
  rw [Laws.putReg_and_mask _ _ (by decide)]
  decide

theorem Laws.EncodingMatchesRow.add (a : Reg) (b : Reg) : Laws.EncodingMatchesRow.Statement (.add a b) := by
  refine Laws.encodingMatchesRow_of ⟨.add, "ADD", 0xF801#16, 0x9000#16, 0x001E#16⟩ (by simp [formTable]) rfl ?_
  simp only [encode, or_and_mask]
  rw [Laws.putReg_and_mask _ _ (by decide), Laws.putReg_and_mask _ _ (by decide)]
  decide

theorem Laws.EncodingMatchesRow.addi (a : Reg) (imm : BitVec 7) : Laws.EncodingMatchesRow.Statement (.addi a imm) := by
  refine Laws.encodingMatchesRow_of ⟨.addi, "ADDI", 0xF801#16, 0x9001#16, 0x0000#16⟩ (by simp [formTable]) rfl ?_
  simp only [encode, or_and_mask]
  rw [Laws.putReg_and_mask _ _ (by decide), field_and_mask _ _ (by decide)]
  decide

theorem Laws.EncodingMatchesRow.add3 (a : Reg) (b : Reg) (c : Reg) : Laws.EncodingMatchesRow.Statement (.add3 a b c) := by
  refine Laws.encodingMatchesRow_of ⟨.add3, "ADD3", 0xF801#16, 0x9800#16, 0x0002#16⟩ (by simp [formTable]) rfl ?_
  simp only [encode, or_and_mask]
  rw [Laws.putReg_and_mask _ _ (by decide), Laws.putReg_and_mask _ _ (by decide), Laws.putReg_and_mask _ _ (by decide)]
  decide

theorem Laws.EncodingMatchesRow.add3i (a : Reg) (b : Reg) (imm : BitVec 4) : Laws.EncodingMatchesRow.Statement (.add3i a b imm) := by
  refine Laws.encodingMatchesRow_of ⟨.add3i, "ADD3I", 0xF801#16, 0x9801#16, 0x0000#16⟩ (by simp [formTable]) rfl ?_
  simp only [encode, or_and_mask]
  rw [Laws.putReg_and_mask _ _ (by decide), Laws.putReg_and_mask _ _ (by decide), field_and_mask _ _ (by decide)]
  decide

theorem Laws.EncodingMatchesRow.sub (a : Reg) (b : Reg) : Laws.EncodingMatchesRow.Statement (.sub a b) := by
  refine Laws.encodingMatchesRow_of ⟨.sub, "SUB", 0xF801#16, 0xA000#16, 0x001E#16⟩ (by simp [formTable]) rfl ?_
  simp only [encode, or_and_mask]
  rw [Laws.putReg_and_mask _ _ (by decide), Laws.putReg_and_mask _ _ (by decide)]
  decide

theorem Laws.EncodingMatchesRow.subi (a : Reg) (imm : BitVec 7) : Laws.EncodingMatchesRow.Statement (.subi a imm) := by
  refine Laws.encodingMatchesRow_of ⟨.subi, "SUBI", 0xF801#16, 0xA001#16, 0x0000#16⟩ (by simp [formTable]) rfl ?_
  simp only [encode, or_and_mask]
  rw [Laws.putReg_and_mask _ _ (by decide), field_and_mask _ _ (by decide)]
  decide

theorem Laws.EncodingMatchesRow.sub3 (a : Reg) (b : Reg) (c : Reg) : Laws.EncodingMatchesRow.Statement (.sub3 a b c) := by
  refine Laws.encodingMatchesRow_of ⟨.sub3, "SUB3", 0xF801#16, 0xA800#16, 0x0002#16⟩ (by simp [formTable]) rfl ?_
  simp only [encode, or_and_mask]
  rw [Laws.putReg_and_mask _ _ (by decide), Laws.putReg_and_mask _ _ (by decide), Laws.putReg_and_mask _ _ (by decide)]
  decide

theorem Laws.EncodingMatchesRow.sub3i (a : Reg) (b : Reg) (imm : BitVec 4) : Laws.EncodingMatchesRow.Statement (.sub3i a b imm) := by
  refine Laws.encodingMatchesRow_of ⟨.sub3i, "SUB3I", 0xF801#16, 0xA801#16, 0x0000#16⟩ (by simp [formTable]) rfl ?_
  simp only [encode, or_and_mask]
  rw [Laws.putReg_and_mask _ _ (by decide), Laws.putReg_and_mask _ _ (by decide), field_and_mask _ _ (by decide)]
  decide

theorem Laws.EncodingMatchesRow.cmp (a : Reg) (b : Reg) : Laws.EncodingMatchesRow.Statement (.cmp a b) := by
  refine Laws.encodingMatchesRow_of ⟨.cmp, "CMP", 0xF800#16, 0xB000#16, 0x001F#16⟩ (by simp [formTable]) rfl ?_
  simp only [encode, or_and_mask]
  rw [Laws.putReg_and_mask _ _ (by decide), Laws.putReg_and_mask _ _ (by decide)]
  decide

theorem Laws.EncodingMatchesRow.cmpi (a : Reg) (imm : BitVec 8) : Laws.EncodingMatchesRow.Statement (.cmpi a imm) := by
  refine Laws.encodingMatchesRow_of ⟨.cmpi, "CMPI", 0xF800#16, 0xB800#16, 0x0000#16⟩ (by simp [formTable]) rfl ?_
  simp only [encode, or_and_mask]
  rw [Laws.putReg_and_mask _ _ (by decide), field_and_mask _ _ (by decide)]
  decide

theorem Laws.EncodingMatchesRow.push (a : Reg) : Laws.EncodingMatchesRow.Statement (.push a) := by
  refine Laws.encodingMatchesRow_of ⟨.push, "PUSH", 0xF000#16, 0xC000#16, 0x08FF#16⟩ (by simp [formTable]) rfl ?_
  simp only [encode, or_and_mask]
  rw [Laws.putReg_and_mask _ _ (by decide)]
  decide

theorem Laws.EncodingMatchesRow.pop (a : Reg) : Laws.EncodingMatchesRow.Statement (.pop a) := by
  refine Laws.encodingMatchesRow_of ⟨.pop, "POP", 0xF000#16, 0xD000#16, 0x08FF#16⟩ (by simp [formTable]) rfl ?_
  simp only [encode, or_and_mask]
  rw [Laws.putReg_and_mask _ _ (by decide)]
  decide

theorem Laws.EncodingMatchesRow.jmp (a : Reg) (imm : BitVec 9) : Laws.EncodingMatchesRow.Statement (.jmp a imm) := by
  refine Laws.encodingMatchesRow_of ⟨.jmp, "JMP", 0xF000#16, 0xE000#16, 0x0000#16⟩ (by simp [formTable]) rfl ?_
  simp only [encode, or_and_mask]
  rw [Laws.putReg_and_mask _ _ (by decide), field_and_mask _ _ (by decide)]
  decide

theorem Laws.EncodingMatchesRow.hlt : Laws.EncodingMatchesRow.Statement (.hlt) := by
  refine Laws.encodingMatchesRow_of ⟨.hlt, "HLT", 0xF000#16, 0xF000#16, 0x0FFF#16⟩ (by simp [formTable]) rfl ?_
  decide

end Sys2Proof
end

