-- ==== Sys2Proof/Tests/Slice0.lean ====
section
/-! SUPPORT. The model's own tests: what the checks of WellFormed and the assembler refuse, the decoding of one word of
every form, single steps, and for every statement with hypotheses a witness that meets them. Expected values are those of
spec/95_test_vectors.md (V, T and the decode table), named in each comment, or are read off the rule named. -/

namespace Sys2Proof.Tests

open Sys2Proof.Machine

/-! Helpers. -/

/-- The reset state with PC = 0x0010, the given FLAGS, and word `w` at PC. -/
def at10 (f : Flag) (w : Word) : State := { State.reset with pc := 0x10, flags := f, mem := [(0x10, w)] }

/-- A memory word set from outside. -/
def poke (a : Nat) (v : Word) (s : State) : State := { s with mem := s.mem.write a v }

/-- FLAG_MODE = SOURCE_LITERAL. -/
def literal (s : State) : State := { s with params := { s.params with flagMode := .sourceLiteral } }

/-- EA_OVERFLOW = FAULT. -/
def faulting (s : State) : State := { s with params := { s.params with eaOverflow := .fault } }

/-- The next state of an outcome. -/
def nextOf : Result → Option State
  | .next t => some t
  | .fault _ => none
  | .refused _ => none

/-- Register `d`, FLAGS and PC after a step. -/
def seen (d : Reg) (s : State) : Option (Word × Flag × Word) := (nextOf (step s)).map fun t => (t.reg d, t.flags, t.pc)

/-- The word at `a`, SP and PC after a step. -/
def stored (a : Nat) (s : State) : Option (Word × Word × Word) := (nextOf (step s)).map fun t => (t.word a, t.sp, t.pc)

/-- STATUS, the info of the fault record and PC after a step. -/
def failed (s : State) : Option (Status × Option FaultInfo × Word) :=
  (nextOf (step s)).map fun t => (t.status, t.fault.map (·.info), t.pc)

/-! What the checks refuse. -/

theorem test_reserved_is_ill_formed : ¬ (Instr.reserved 0).WellFormed := by decide
theorem test_hlt_is_well_formed : Instr.hlt.WellFormed := by decide

/-- R8: STACK_FLOOR lies below STACK_BASE. -/
theorem test_floor_at_base_refused :
    ¬ { Config.Params.atReset with stackFloor := 0xFFFF }.FloorBelowBase := by decide

/-- R8: ROM_CAPACITY is at least 1. -/
theorem test_no_rom_refused : ¬ { Config.Params.atReset with romCapacity := 0 }.CapacityPositive := by decide

/-- R8: ROM_CAPACITY is at most STACK_FLOOR. -/
theorem test_rom_above_floor_refused :
    ¬ { Config.Params.atReset with romCapacity := 0xFF01 }.CapacityBelowFloor := by decide

theorem test_params_at_their_bounds_accepted :
    { Config.Params.atReset with stackFloor := 0xFFFE, romCapacity := 0xFFFE }.WellFormed ∧
    { Config.Params.atReset with stackFloor := 1, romCapacity := 1 }.WellFormed := by decide

/-- R105: an operand that does not fit its field is an error, never truncated. -/
theorem test_asm_out_of_range :
    assembleLine ⟨"ADDI", [.reg 1, .imm 128]⟩ = .error (.outOfRange 128) ∧
    assembleLine ⟨"ADDI", [.reg 8, .imm 1]⟩ = .error (.outOfRange 8) ∧
    assembleLine ⟨"B", [.target 4096]⟩ = .error (.outOfRange 4096) := ⟨rfl, rfl, rfl⟩

theorem test_asm_missing_operand : assembleLine ⟨"ADD3", [.reg 1, .reg 2]⟩ = .error .missingOperand := rfl
theorem test_asm_wrong_operand : assembleLine ⟨"LD", [.reg 1, .reg 2]⟩ = .error .badOperands := rfl
theorem test_asm_unknown_mnemonic : assembleLine ⟨"NOP", []⟩ = .error (.unknownMnemonic "NOP") := rfl
theorem test_asm_names_the_line :
    assemble [⟨"HLT", []⟩, ⟨"PUSH", [.reg 9]⟩] = .error (2, .outOfRange 9) := rfl

/-- V7d: the text of V1 assembles to its words. -/
theorem test_asm_v1 :
    assemble [⟨"MOVI", [.reg 0, .imm 1]⟩, ⟨"MOVI", [.reg 1, .imm 15]⟩, ⟨"ST", [.reg 1, .indirect 0]⟩,
      ⟨"LD", [.reg 2, .indirect 0]⟩, ⟨"AND3", [.reg 4, .reg 1, .reg 2]⟩, ⟨"HLT", []⟩] =
    .ok [0x5801, 0x590F, 0x4080, 0x3100, 0x6C28, 0xF000] := rfl

/-- V7d as text (R104): the words of V1, with a comment, a hexadecimal number and a blank line. -/
theorem test_asm_text_v1 :
    assembleText "MOVI R0, #1\nMOVI R1, #0xF ; 15\n\nST R1, [R0]\nLD R2, [R0]\nAND3 R4, R1, R2\nHLT".toList =
    .ok [0x5801, 0x590F, 0x4080, 0x3100, 0x6C28, 0xF000] := by decide

theorem test_asm_text_names_the_line :
    assembleText "HLT\nADDI R1, #128".toList = .error (2, .outOfRange 128) ∧
    assembleText "MOV R1,".toList = .error (1, .missingOperand) := by decide

/-- T24's text. -/
theorem test_asm_line_text : (disassemble (.ldd 6 7 15)).map AsmLine.text = some "LDD R6, [R7, #15]" := by decide

/-- The decoder refuses the empty stream of words, and only it. -/
theorem test_decode_no_word : decode [] = .error .noWord := rfl

/-! Decoding: one word of every form, its bits written out field by field as in the comment (R108). -/

/-- 0000 000100100011 (T1). -/
theorem test_decode_b : decodeWord 0b0000000100100011#16 = .b 0x123 := by decide
/-- 0001 0 01000000000 (T4). -/
theorem test_decode_beq : decodeWord 0b0001001000000000#16 = .beq 0x200 := by decide
/-- 0001 1 01000000000 (T7). -/
theorem test_decode_bne : decodeWord 0b0001101000000000#16 = .bne 0x200 := by decide
/-- 0010 0 00001000000 (T10). -/
theorem test_decode_bgt : decodeWord 0b0010000001000000#16 = .bgt 0x40 := by decide
/-- 0010 1 00001000000 (T13). -/
theorem test_decode_blt : decodeWord 0b0010100001000000#16 = .blt 0x40 := by decide
/-- 0011 00 011 101 1111 (T20, its ignored bits all ones). -/
theorem test_decode_ld : decodeWord 0b0011000111011111#16 = .ld 3 5 := by decide
/-- 0011 01 001 010 011 0 (T21). -/
theorem test_decode_ldx : decodeWord 0b0011010010100110#16 = .ldx 1 2 3 := by decide
/-- 0011 10 110 111 1111 (T24). -/
theorem test_decode_ldd : decodeWord 0b0011101101111111#16 = .ldd 6 7 15 := by decide
/-- 0011 11 111 1111111 (T28). -/
theorem test_decode_ldi : decodeWord 0b0011111111111111#16 = .ldi 7 127 := by decide
/-- 0100 00 010 011 0000 (T30). -/
theorem test_decode_st : decodeWord 0b0100000100110000#16 = .st 2 3 := by decide
/-- 0100 01 100 101 110 0 (T32). -/
theorem test_decode_stx : decodeWord 0b0100011001011100#16 = .stx 4 5 6 := by decide
/-- 0100 10 001 000 0011 (T35). -/
theorem test_decode_std : decodeWord 0b0100100010000011#16 = .std 1 0 3 := by decide
/-- 0100 11 1111111111 (T38). -/
theorem test_decode_reserved : decodeWord 0b0100111111111111#16 = .reserved 0x3FF := by decide
/-- 0101 0 011 001 11111 (T42, its ignored bits all ones). -/
theorem test_decode_mov : decodeWord 0b0101001100111111#16 = .mov 3 1 := by decide
/-- 0101 1 101 10000000 (T44). -/
theorem test_decode_movi : decodeWord 0b0101110110000000#16 = .movi 5 0x80 := by decide
/-- 0110 0 001 010 0000 0 (T47). -/
theorem test_decode_and : decodeWord 0b0110000101000000#16 = .and 1 2 := by decide
/-- 0110 0 001 1111111 1 (T50). -/
theorem test_decode_andi : decodeWord 0b0110000111111111#16 = .andi 1 0x7F := by decide
/-- 0110 1 100 001 010 0 0 (T52). -/
theorem test_decode_and3 : decodeWord 0b0110110000101000#16 = .and3 4 1 2 := by decide
/-- 0110 1 010 001 1001 1 (T54). -/
theorem test_decode_and3i : decodeWord 0b0110101000110011#16 = .and3i 2 1 9 := by decide
/-- 0111 0 001 010 0000 0 (T56). -/
theorem test_decode_or : decodeWord 0b0111000101000000#16 = .or 1 2 := by decide
/-- 0111 0 001 1010101 1 (T59). -/
theorem test_decode_ori : decodeWord 0b0111000110101011#16 = .ori 1 0x55 := by decide
/-- 0111 1 000 110 111 0 0 (T60). -/
theorem test_decode_or3 : decodeWord 0b0111100011011100#16 = .or3 0 6 7 := by decide
/-- 0111 1 011 100 1111 1 (T62). -/
theorem test_decode_or3i : decodeWord 0b0111101110011111#16 = .or3i 3 4 15 := by decide
/-- 1000 1 111 11111111 (T68, its ignored bits all ones). -/
theorem test_decode_not : decodeWord 0b1000111111111111#16 = .not 7 := by decide
/-- 1001 0 001 010 0000 0 (T69). -/
theorem test_decode_add : decodeWord 0b1001000101000000#16 = .add 1 2 := by decide
/-- 1001 0 001 1100100 1 (T72). -/
theorem test_decode_addi : decodeWord 0b1001000111001001#16 = .addi 1 100 := by decide
/-- 1001 1 101 110 111 0 0 (T75). -/
theorem test_decode_add3 : decodeWord 0b1001110111011100#16 = .add3 5 6 7 := by decide
/-- 1001 1 010 010 1111 1 (T77). -/
theorem test_decode_add3i : decodeWord 0b1001101001011111#16 = .add3i 2 2 15 := by decide
/-- 1010 0 001 010 0000 0 (T79). -/
theorem test_decode_sub : decodeWord 0b1010000101000000#16 = .sub 1 2 := by decide
/-- 1010 0 001 1111111 1 (T84). -/
theorem test_decode_subi : decodeWord 0b1010000111111111#16 = .subi 1 127 := by decide
/-- 1010 1 011 100 100 0 0 (T85). -/
theorem test_decode_sub3 : decodeWord 0b1010101110010000#16 = .sub3 3 4 4 := by decide
/-- 1010 1 000 001 0010 1 (T87). -/
theorem test_decode_sub3i : decodeWord 0b1010100000100101#16 = .sub3i 0 1 2 := by decide
/-- 1011 0 001 010 00000 (T89). -/
theorem test_decode_cmp : decodeWord 0b1011000101000000#16 = .cmp 1 2 := by decide
/-- 1011 1 001 11111111 (T98). -/
theorem test_decode_cmpi : decodeWord 0b1011100111111111#16 = .cmpi 1 0xFF := by decide
/-- 1100 0 011 00000000 (T99). -/
theorem test_decode_push : decodeWord 0b1100001100000000#16 = .push 3 := by decide
/-- 1101 0 100 00000000 (T103). -/
theorem test_decode_pop : decodeWord 0b1101010000000000#16 = .pop 4 := by decide
/-- 1110 010 000000001 (T106). -/
theorem test_decode_jmp : decodeWord 0b1110010000000001#16 = .jmp 2 1 := by decide
/-- 1111 101010111100 (T112, its ignored bits not 0). -/
theorem test_decode_hlt : decodeWord 0b1111101010111100#16 = .hlt := by decide

/-- The table's numbering of a word's bits, at nbits = 16. -/
theorem test_decode_table_word : decodeTableWord 16 0x6C28 = some (.and3 4 1 2) := by decide

/-! Single steps (the vectors of spec/95_test_vectors.md part 2). -/

/-- B 0x123 (R140). -/
theorem test_T1_b : seen 0 (at10 .z 0x0123) = some (0, .z, 0x0123) := by decide
/-- B 0xFFF (R140). -/
theorem test_T2_b : seen 0 (at10 .z 0x0FFF) = some (0, .z, 0x0FFF) := by decide
/-- BEQ 0x200 (R141). -/
theorem test_T4_beq : seen 0 (at10 .z 0x1200) = some (0, .z, 0x0200) := by decide
/-- BEQ 0x200 (R141). -/
theorem test_T5_beq : seen 0 (at10 .p 0x1200) = some (0, .p, 0x0011) := by decide
/-- BNE 0x200 (R142). -/
theorem test_T7_bne : seen 0 (at10 .z 0x1A00) = some (0, .z, 0x0011) := by decide
/-- BNE 0x7FF (R142). -/
theorem test_T17_bne :
    seen 0 ({ State.reset with pc := 0xFFFF, flags := .z, mem := [(0xFFFF, 0x1FFF)] } : State) = some (0, .z, 0x0000) := by decide
/-- BGT 0x40 (R143). -/
theorem test_T10_bgt : seen 0 (at10 .p 0x2040) = some (0, .p, 0x0040) := by decide
/-- BGT 0x40 (R143). -/
theorem test_T12_bgt : seen 0 (at10 .n 0x2040) = some (0, .n, 0x0011) := by decide
/-- BLT 0x40 (R144). -/
theorem test_T13_blt : seen 0 (at10 .n 0x2840) = some (0, .n, 0x0040) := by decide
/-- BLT 0x40 (R144). -/
theorem test_T15_blt : seen 0 (at10 .p 0x2840) = some (0, .p, 0x0011) := by decide
/-- LD R2, [R2] (R150). -/
theorem test_T19_ld :
    seen 2 (poke 0x0100 0x0005 ((at10 .z 0x3120).setReg 2 0x0100)) = some (0x0005, .z, 0x0011) := by decide
/-- LD R3, [R5] (R150). -/
theorem test_T18_ld :
    seen 3 (poke 0x0100 0xBEEF ((at10 .n 0x31D0).setReg 5 0x0100)) = some (0xBEEF, .n, 0x0011) := by decide
/-- LDX R1, [R2, R3] (R151). -/
theorem test_T22_ldx :
    seen 1 (poke 0x0001 0x4444 (((at10 .z 0x34A6).setReg 2 0xFFFF).setReg 3 0x0002)) = some (0x4444, .z, 0x0011) := by decide
/-- LDX R1, [R2, R3] (R151). -/
theorem test_T23_ldx :
    failed (faulting (poke 0x0001 0x4444 (((at10 .z 0x34A6).setReg 2 0xFFFF).setReg 3 0x0002))) = some (.addressError, some (.address 0x10001), 0x0010) := by decide
/-- LDD R6, [R7, #15] (R152). -/
theorem test_T25_ldd :
    seen 6 (poke 0x0000 0x5801 ((at10 .z 0x3B7F).setReg 7 0xFFF1)) = some (0x5801, .z, 0x0011) := by decide
/-- LDD R6, [R7, #15] (R152). -/
theorem test_T26_ldd :
    failed (faulting ((at10 .z 0x3B7F).setReg 7 0xFFF1)) = some (.addressError, some (.address 0x10000), 0x0010) := by decide
/-- LDI R7, #127 (R153). -/
theorem test_T28_ldi : seen 7 (at10 .n 0x3FFF) = some (0x007F, .n, 0x0011) := by decide
/-- LDI R0, #0 (R153). -/
theorem test_T29_ldi : seen 0 ((at10 .p 0x3C00).setReg 0 0x1234) = some (0x0000, .p, 0x0011) := by decide
/-- ST R2, [R3] (R154). -/
theorem test_T30_st :
    stored 0x0200 (((at10 .z 0x4130).setReg 2 0xABCD).setReg 3 0x0200) = some (0xABCD, 0xFFFF, 0x0011) := by decide
/-- ST R3, [R3] (R154). -/
theorem test_T31_st : stored 0x0200 ((at10 .z 0x41B0).setReg 3 0x0200) = some (0x0200, 0xFFFF, 0x0011) := by decide
/-- STX R4, [R5, R6] (R155). -/
theorem test_T32_stx :
    stored 0x0310 ((((at10 .z 0x465C).setReg 4 0x7777).setReg 5 0x0300).setReg 6 0x0010) = some (0x7777, 0xFFFF, 0x0011) := by decide
/-- STX R4, [R5, R6] (R155). -/
theorem test_T33_stx :
    stored 0x0000 ((((at10 .z 0x465C).setReg 4 0x7777).setReg 5 0xFFFF).setReg 6 0x0001) = some (0x7777, 0xFFFF, 0x0011) := by decide
/-- STD R1, [R0, #3] (R156). -/
theorem test_T35_std :
    stored 0x0403 (((at10 .z 0x4883).setReg 0 0x0400).setReg 1 0x0042) = some (0x0042, 0xFFFF, 0x0011) := by decide
/-- STD R1, [R0, #0] (R156). -/
theorem test_T36_std :
    stored 0x0010 (((at10 .z 0x4880).setReg 0 0x0010).setReg 1 0x0042) = some (0x0042, 0xFFFF, 0x0011) := by decide
/-- The reserved store mode (R157). -/
theorem test_T37_reserved : failed (at10 .z 0x4C00) = some (.decodeError, some (.word 0x4C00), 0x0010) := by decide
/-- The reserved store mode (R157). -/
theorem test_T38_reserved : failed (at10 .z 0x4FFF) = some (.decodeError, some (.word 0x4FFF), 0x0010) := by decide
/-- MOV R3, R1 (R160). -/
theorem test_T39_mov : seen 3 ((at10 .z 0x5320).setReg 1 0x8001) = some (0x8001, .n, 0x0011) := by decide
/-- MOV R3, R1 (R160). -/
theorem test_T40_mov : seen 3 (literal ((at10 .z 0x5320).setReg 1 0x8001)) = some (0x8001, .p, 0x0011) := by decide
/-- MOVI R5, #0x80 (R161). -/
theorem test_T44_movi : seen 5 (at10 .z 0x5D80) = some (0x0080, .p, 0x0011) := by decide
/-- MOVI R5, #0 (R161). -/
theorem test_T45_movi : seen 5 ((at10 .n 0x5D00).setReg 5 0x1234) = some (0x0000, .z, 0x0011) := by decide
/-- AND R1, R2 (R162). -/
theorem test_T48_and :
    seen 1 (((at10 .z 0x6140).setReg 1 0xF0F0).setReg 2 0x0F0F) = some (0x0000, .z, 0x0011) := by decide
/-- AND R3, R3 (R162). -/
theorem test_T49_and : seen 3 ((at10 .z 0x6360).setReg 3 0x8000) = some (0x8000, .n, 0x0011) := by decide
/-- ANDI R1, #0x7F (R163). -/
theorem test_T50_andi : seen 1 ((at10 .z 0x61FF).setReg 1 0xFFFF) = some (0x007F, .p, 0x0011) := by decide
/-- AND3 R1, R1, R2 (R164). -/
theorem test_T53_and3 :
    seen 1 (((at10 .z 0x6928).setReg 1 0xFF00).setReg 2 0x8F0F) = some (0x8F00, .n, 0x0011) := by decide
/-- AND3I R2, R1, #9 (R165). -/
theorem test_T54_and3i : seen 2 ((at10 .z 0x6A33).setReg 1 0xFFFF) = some (0x0009, .p, 0x0011) := by decide
/-- OR R1, R2 (R166). -/
theorem test_T56_or :
    seen 1 (((at10 .z 0x7140).setReg 1 0xF000).setReg 2 0x000F) = some (0xF00F, .n, 0x0011) := by decide
/-- OR R1, R2 (R166). -/
theorem test_T57_or :
    seen 1 (literal (((at10 .z 0x7140).setReg 1 0xF000).setReg 2 0x000F)) = some (0xF00F, .p, 0x0011) := by decide
/-- ORI R1, #0x55 (R167). -/
theorem test_T59_ori : seen 1 ((at10 .z 0x71AB).setReg 1 0x8000) = some (0x8055, .n, 0x0011) := by decide
/-- OR3 R0, R6, R7 (R168). -/
theorem test_T60_or3 : seen 0 ((at10 .p 0x78DC).setReg 0 0x1111) = some (0x0000, .z, 0x0011) := by decide
/-- OR3I R3, R4, #15 (R169). -/
theorem test_T62_or3i : seen 3 ((at10 .z 0x7B9F).setReg 4 0x00F0) = some (0x00FF, .p, 0x0011) := by decide
/-- NOT R0 (R170). -/
theorem test_T65_not : seen 0 (literal (at10 .z 0x8000)) = some (0xFFFF, .p, 0x0011) := by decide
/-- NOT R5 (R170). -/
theorem test_T67_not : seen 5 ((at10 .z 0x8500).setReg 5 0x8000) = some (0x7FFF, .p, 0x0011) := by decide
/-- ADD R1, R2 (R171). -/
theorem test_T69_add :
    seen 1 (((at10 .z 0x9140).setReg 1 0xFFFF).setReg 2 0x0001) = some (0x0000, .z, 0x0011) := by decide
/-- ADD R1, R2 (R171). -/
theorem test_T70_add :
    seen 1 (((at10 .z 0x9140).setReg 1 0x7FFF).setReg 2 0x0001) = some (0x8000, .n, 0x0011) := by decide
/-- ADDI R1, #100 (R172). -/
theorem test_T72_addi : seen 1 ((at10 .z 0x91C9).setReg 1 0x7FFF) = some (0x8063, .n, 0x0011) := by decide
/-- ADDI R1, #100 (R172). -/
theorem test_T73_addi : seen 1 (literal ((at10 .z 0x91C9).setReg 1 0x7FFF)) = some (0x8063, .p, 0x0011) := by decide
/-- ADD3 R5, R6, R7 (R173). -/
theorem test_T75_add3 :
    seen 5 (((at10 .z 0x9DDC).setReg 6 0x1234).setReg 7 0x1111) = some (0x2345, .p, 0x0011) := by decide
/-- ADD3 R6, R6, R6 (R173). -/
theorem test_T76_add3 : seen 6 ((at10 .z 0x9ED8).setReg 6 0x4000) = some (0x8000, .n, 0x0011) := by decide
/-- ADD3I R2, R2, #15 (R174). -/
theorem test_T77_add3i : seen 2 ((at10 .z 0x9A5F).setReg 2 0x0001) = some (0x0010, .p, 0x0011) := by decide
/-- ADD3I R0, R1, #1 (R174). -/
theorem test_T78_add3i : seen 0 ((at10 .z 0x9823).setReg 1 0xFFFF) = some (0x0000, .z, 0x0011) := by decide
/-- SUB R1, R2 (R175). -/
theorem test_T80_sub :
    seen 1 (((at10 .z 0xA140).setReg 1 0x0005).setReg 2 0x0007) = some (0xFFFE, .n, 0x0011) := by decide
/-- SUB R4, R4 (R175). -/
theorem test_T81_sub : seen 4 ((at10 .z 0xA480).setReg 4 0x1234) = some (0x0000, .z, 0x0011) := by decide
/-- SUBI R1, #1 (R176). -/
theorem test_T82_subi : seen 1 ((at10 .z 0xA103).setReg 1 0x0000) = some (0xFFFF, .n, 0x0011) := by decide
/-- SUBI R1, #127 (R176). -/
theorem test_T84_subi : seen 1 ((at10 .z 0xA1FF).setReg 1 0x007F) = some (0x0000, .z, 0x0011) := by decide
/-- SUB3 R3, R4, R4 (R177). -/
theorem test_T85_sub3 : seen 3 ((at10 .z 0xAB90).setReg 4 0x5555) = some (0x0000, .z, 0x0011) := by decide
/-- SUB3 R0, R1, R2 (R177). -/
theorem test_T86_sub3 :
    seen 0 (((at10 .z 0xA828).setReg 1 0x8000).setReg 2 0x0001) = some (0x7FFF, .p, 0x0011) := by decide
/-- SUB3I R0, R1, #2 (R178). -/
theorem test_T87_sub3i : seen 0 ((at10 .z 0xA825).setReg 1 0x0001) = some (0xFFFF, .n, 0x0011) := by decide
/-- SUB3I R1, R1, #15 (R178). -/
theorem test_T88_sub3i : seen 1 ((at10 .z 0xA93F).setReg 1 0x0010) = some (0x0001, .p, 0x0011) := by decide
/-- CMP R1, R2 (R179). -/
theorem test_T92_cmp :
    seen 1 (((at10 .z 0xB140).setReg 1 0x8000).setReg 2 0x0001) = some (0x8000, .p, 0x0011) := by decide
/-- CMP R1, R2 (R179). -/
theorem test_T94_cmp :
    seen 1 (((at10 .z 0xB140).setReg 1 0x7FFF).setReg 2 0x8000) = some (0x7FFF, .n, 0x0011) := by decide
/-- CMPI R1, #0 (R180). -/
theorem test_T97_cmpi : seen 1 ((at10 .z 0xB900).setReg 1 0x8000) = some (0x8000, .n, 0x0011) := by decide
/-- CMPI R1, #0xFF (R180). -/
theorem test_T98_cmpi : seen 1 ((at10 .z 0xB9FF).setReg 1 0x0000) = some (0x0000, .n, 0x0011) := by decide
/-- PUSH R3 (R185). -/
theorem test_T100_push :
    stored 0xFF00 (((at10 .z 0xC300).setReg 3 0x1234).setSp 0xFF01) = some (0x1234, 0xFF00, 0x0011) := by decide
/-- PUSH R3 (R185). -/
theorem test_T101_push :
    failed (((at10 .z 0xC300).setReg 3 0x1234).setSp 0xFF00) = some (.stackError, some (.stackPointer 0xFF00), 0x0010) := by decide
/-- POP R4 (R186). -/
theorem test_T103_pop :
    seen 4 ((poke 0xFFFE 0x5678 (at10 .z 0xD400)).setSp 0xFFFE) = some (0x5678, .z, 0x0011) := by decide
/-- POP R4 (R186). -/
theorem test_T104_pop :
    failed (poke 0xFFFF 0x5678 (at10 .z 0xD400)) = some (.stackError, some (.stackPointer 0xFFFF), 0x0010) := by decide
/-- JMP [R0, #511] (R190). -/
theorem test_T107_jmp : seen 0 (poke 0x01FF 0xFFFF (at10 .z 0xE1FF)) = some (0, .z, 0xFFFF) := by decide
/-- JMP [R2, #1] (R190). -/
theorem test_T108_jmp :
    seen 2 (poke 0x0000 0x0123 ((at10 .z 0xE401).setReg 2 0xFFFF)) = some (0xFFFF, .z, 0x0123) := by decide
/-- HLT (R191). -/
theorem test_T111_hlt :
    (nextOf (step ({ State.reset with pc := 0xFFFF, flags := .z, mem := [(0xFFFF, 0xF000)] } : State))).map (fun t => (t.run, t.status, t.pc)) = some (false, .halt, 0x0000) := by decide

/-! Witnesses: for every statement with hypotheses, states and operands that meet them, each clause at a boundary. -/

/-- The reset state with word `w` at PC = 0. -/
def withWord (w : Word) : State := { State.reset with mem := [(0, w)] }

/-- Parameters with a given STEP_BUDGET. -/
def budgeted (n : Nat) : Config.Params := { Config.Params.atReset with stepBudget := n }

theorem witness_MemoryAfterResetAndLoad :
    Config.Params.atReset.WellFormed ∧ ∃ s, boot Config.Params.atReset [0x5801, 0xF000] = .ok s ∧
      s.word 1 = 0xF000 ∧ s.word 2 = 0 := ⟨by decide, _, rfl, rfl, rfl⟩

theorem witness_LoadInterface :
    let small := State.resetWith { Config.Params.atReset with romCapacity := 2 }
    let programA : List Word := [0x5801, 0x5802, 0xF000]
    let programB : List Word := [0x5801, 0xF000]
    (small.beforeFirstFetch = true ∧ small.params.romCapacity < programA.length) ∧
    (small.beforeFirstFetch = true ∧ programB.length ≤ small.params.romCapacity ∧ 1 < programB.length ∧
      programB.length ≤ 2) ∧
    { small with steps := 1 }.beforeFirstFetch = false ∧ (budgeted 0).stepBudget < 1 := by decide

theorem witness_DecodeEncodeRoundTrip :
    formTable[5] ∈ formTable ∧ formTable[5].form = (decodeWord 0x31DF).form ∧ (decodeWord 0x31DF).valid = true := by
  decide

theorem witness_IgnoredBitsNeverMatter :
    (formTable[5] ∈ formTable ∧ formTable[5].form = (decodeWord 0x31DF).form ∧ (decodeWord 0x31DF).valid = true ∧
      (0x31DF#16 &&& ~~~ formTable[5].ignored) = 0x31D0#16 &&& ~~~ formTable[5].ignored) ∧
    formTable[5].form = (Instr.ld 3 5).form ∧ (Instr.ld 3 5).valid = true ∧ 0x4C00#16 &&& 0xFC00#16 = 0x4C00#16 := by
  decide

theorem witness_RegisterPortsCarryTheOperands :
    1 ∈ (decodeWord 0x6C28).reads ∧ 2 ∈ (decodeWord 0x6C28).reads ∧ (decodeWord 0x6C28).writes = some 4 ∧
    (decodeWord 0x465C).writes = none := by decide

/-- R97: STX reads through all three ports; the stores' write index is a free value, and not enabled. -/
theorem test_ports_stx : (portsOf 0x465C).ra = 4 ∧ (portsOf 0x465C).rb = 5 ∧ (portsOf 0x465C).rc = 6 ∧
    (portsOf 0x465C).writeEnable = false := ⟨rfl, rfl, rfl, rfl⟩

theorem witness_AssemblerAcceptsExactlyTheSyntax :
    (Instr.addi 1 127).valid = true ∧ assembleLine ⟨"ADDI", [.reg 1, .imm 127]⟩ = .ok (.addi 1 127) :=
  ⟨rfl, rfl⟩

theorem witness_ControllerReadsAndWrites :
    Config.memWords ≤ 65536 ∧ 65535 < Config.memWords ∧
    effectiveAddress .fault 0xFFFF 0 = .ok 65535 ∧ effectiveAddress .wrap 0xFFFF 1 = .ok 0 :=
  ⟨by decide, by decide, rfl, rfl⟩

theorem witness_EffectiveAddressValue :
    (0xFFF0#16).toNat + (0x000F#16).toNat ≤ 0xFFFF ∧ 0xFFFF < (0xFFF1#16).toNat + (0x000F#16).toNat := by decide

/-- A store of each form at the last word of ROM, for PUSH with a ROM length above the stack floor. -/
theorem witness_StoresIntoRomArePerformedAndFetched :
    let s : State := { (State.reset.setReg 2 1).setReg 3 1 with romLen := 3 }
    let p : State := { State.reset with romLen := 0xFFFF }
    s.region 2 = .rom ∧ s.region 3 = .free ∧ addrIndirect (s.setReg 2 2) 2 = .ok 2 ∧ addrIndexed s 2 3 = .ok 2 ∧
      addrOffset s 2 (1 : BitVec 4) = .ok 2 ∧ p.region 0xFFFE = .rom ∧ addrPush p = .ok 0xFFFE :=
  ⟨rfl, rfl, rfl, rfl, rfl, rfl, rfl⟩

/-- The readers of a stored word: each addressing form reaches the address, POP and the fetch too. -/
theorem witness_ReadsAs :
    let u : State := { poke 2 7 ((State.reset.setReg 2 2).setReg 3 0) with pc := 2, sp := 2 }
    u.word 2 = 7 ∧ addrIndirect u 2 = .ok 2 ∧ addrIndexed u 2 3 = .ok 2 ∧ addrOffset u 2 (0 : BitVec 4) = .ok 2 ∧
      addrPop u = .ok 2 ∧ addrOffset u 2 (0 : BitVec 9) = .ok 2 ∧ u.pc.toNat = 2 :=
  ⟨rfl, rfl, rfl, rfl, rfl, rfl, rfl⟩

theorem witness_OnlyTheDataTransactionTouchesMemory :
    let s : State := (State.reset.setReg 1 7).setReg 2 0xFFFF
    (∃ t, exec (.st 1 2) s = .next t) ∧ dataTransaction s (.st 1 2) = some (.write 0xFFFF 7) ∧
    (∃ t, exec (.mov 1 2) s = .next t) ∧ dataTransaction s (.mov 1 2) = none ∧
    (∃ t, exec (.pop 1) s = .next t) ∧ dataTransaction s (.pop 1) = none :=
  ⟨⟨_, rfl⟩, rfl, ⟨_, rfl⟩, rfl, ⟨_, rfl⟩, rfl⟩

theorem witness_BranchConditionsExclude :
    ((0x7FF#11).setWidth 16 : Word) ≠ State.reset.pc + 1 ∧ State.reset.flags = .z := by decide

theorem witness_LoadIndexedAndOffset :
    let s : State := (State.reset.setReg 2 0xFFFF).setReg 3 0
    let t : State := faulting ((State.reset.setReg 2 0xFFFF).setReg 3 1)
    ((s.reg 2).toNat + (s.reg 3).toNat ≤ 0xFFFF ∨ s.params.eaOverflow = .wrap) ∧
    (0xFFFF < (t.reg 2).toNat + (t.reg 3).toNat ∧ t.params.eaOverflow = .fault) ∧
    ((s.reg 2).toNat + (0#4).toNat ≤ 0xFFFF ∨ s.params.eaOverflow = .wrap) ∧
    (0xFFFF < (t.reg 2).toNat + (1#4).toNat ∧ t.params.eaOverflow = .fault) := by decide

theorem witness_StoreIndexedAndOffset :
    let s : State := faulting ((State.reset.setReg 5 0xFFFF).setReg 6 0)
    let t : State := faulting ((State.reset.setReg 5 0xFFFF).setReg 6 1)
    ((s.reg 5).toNat + (s.reg 6).toNat ≤ 0xFFFF ∨ s.params.eaOverflow = .wrap) ∧
    (0xFFFF < (t.reg 5).toNat + (t.reg 6).toNat ∧ t.params.eaOverflow = .fault) ∧
    ((s.reg 5).toNat + (0#4).toNat ≤ 0xFFFF ∨ s.params.eaOverflow = .wrap) ∧
    (0xFFFF < (t.reg 5).toNat + (1#4).toNat ∧ t.params.eaOverflow = .fault) := by decide

theorem witness_ReservedStoreModeRaisesDecodeError :
    let s := withWord 0x4FFF
    s.fsm = .fetch ∧ s.steps < s.params.stepBudget ∧ s.fetchWord &&& 0xFC00#16 = 0x4C00#16 := by decide

theorem witness_CompareWritesFlagsOnly : (literal State.reset).params.flagMode = .sourceLiteral ∧ (0#8 : BitVec 8) = 0 := by
  decide

theorem witness_PushStoresBelowSp :
    (State.reset.setSp 0xFF01).params.stackFloor < (State.reset.setSp 0xFF01).sp ∧
    (State.reset.setSp 0xFF00).sp ≤ (State.reset.setSp 0xFF00).params.stackFloor := by decide

theorem witness_PopLoadsAtSp :
    (State.reset.setSp 0xFFFE).sp < Config.stackBase ∧ Config.stackBase ≤ State.reset.sp := by decide

theorem witness_PushThenPopRestores :
    let s : State := State.reset.setReg 3 0x1234
    let between : List Instr := [.movi 3 9, .st 3 3]
    s.fsm ≠ .fault ∧ (∀ i ∈ between, isStackOp i = false) ∧
    ∃ t u v, exec (.push 3) s = .next t ∧ t.fsm ≠ .fault ∧ execAll between t = .next u ∧
      u.word (s.sp - 1).toNat = t.word (s.sp - 1).toNat ∧ exec (.pop 4) u = .next v ∧ v.fsm ≠ .fault :=
  ⟨by decide, by decide, _, _, _, rfl, by decide, rfl, rfl, rfl, by decide⟩

theorem witness_StackExtent :
    let s : State := State.reset.setSp 0xFF01
    let u : State := State.reset.setSp 0xFFFE
    s.params.stackFloor ≤ s.sp ∧ s.fsm ≠ .fault ∧ (∃ t, exec (.push 0) s = .next t ∧ t.fsm ≠ .fault) ∧
    u.fsm ≠ .fault ∧ ∃ t, exec (.pop 0) u = .next t ∧ t.fsm ≠ .fault :=
  ⟨by decide, by decide, ⟨_, rfl, by decide⟩, by decide, _, rfl, by decide⟩

theorem witness_JumpThroughMemory :
    let s : State := faulting (State.reset.setReg 2 0xFE00)
    let t : State := faulting (State.reset.setReg 2 0xFE01)
    ((s.reg 2).toNat + (511#9).toNat ≤ 0xFFFF ∨ s.params.eaOverflow = .wrap) ∧
    (0xFFFF < (t.reg 2).toNat + (511#9).toNat ∧ t.params.eaOverflow = .fault) := by decide

theorem witness_HaltStopsTheRun :
    let s := withWord 0xF000
    s.fsm = .fetch ∧ s.steps < s.params.stepBudget ∧ decodeWord s.fetchWord = .hlt := by decide

theorem witness_FlagsWrittenByFlagProducingFormsOnly :
    State.reset.fsm ≠ .fault ∧
    (∃ t, exec (.subi 1 1) State.reset = .next t ∧ t.fsm ≠ .fault ∧ flagProducing (.subi 1 1) = true ∧
      (Instr.subi 1 1).writes = some 1) ∧
    ∃ t, exec (.pop 1) State.reset = .next t ∧ t.fsm = .fault :=
  ⟨by decide, ⟨_, rfl, by decide, rfl, rfl⟩, _, rfl, rfl⟩

theorem witness_OnlyConditionalBranchesReadFlags :
    (∀ imm, Instr.b 0 ≠ .beq imm ∧ Instr.b 0 ≠ .bne imm ∧ Instr.b 0 ≠ .bgt imm ∧ Instr.b 0 ≠ .blt imm) ∧
    ∃ t, exec (.b 0) State.reset = .next t :=
  ⟨fun _ => ⟨Instr.noConfusion, Instr.noConfusion, Instr.noConfusion, Instr.noConfusion⟩, _, rfl⟩

theorem witness_RegistersReadAndWritten :
    (∃ t, exec (.add3 1 2 3) State.reset = .next t ∧ t.fsm ≠ .fault) ∧ State.reset.fsm ≠ .fault ∧
    (Instr.add3 1 2 3).writes ≠ some 2 ∧ (1 : Reg) ∉ (Instr.add3 1 2 3).reads ∧
    (Instr.add3 1 2 3).writes = some 1 := ⟨⟨_, rfl, by decide⟩, by decide⟩

theorem witness_OnlyPushAndPopChangeSp :
    (∃ t, exec (.push 0) (State.reset.setSp 0xFF01) = .next t ∧ t.sp ≠ (State.reset.setSp 0xFF01).sp) ∧
    (∃ t, exec (.pop 0) (State.reset.setSp 0xFFFE) = .next t ∧ t.sp ≠ (State.reset.setSp 0xFFFE).sp) ∧
    State.reset.params.stackFloor ≤ (State.reset.setSp 0xFF00).sp :=
  ⟨⟨_, rfl, by decide⟩, ⟨_, rfl, by decide⟩, by decide⟩

theorem witness_LinkRegisterIsInert :
    (∃ t, step (withWord 0x5801) = .next t) ∧ (∃ t, exec (.push 0) State.reset = .next t) ∧
    ∃ s, boot Config.Params.atReset [0xF000] = .ok s := ⟨⟨_, rfl⟩, ⟨_, rfl⟩, _, rfl⟩

theorem witness_RunIsClearedByHaltOnly :
    (∃ t, exec .hlt State.reset = .next t) ∧ ∃ t, step (withWord 0xF000) = .next t ∧ t.run = false :=
  ⟨⟨_, rfl⟩, _, rfl, rfl⟩

theorem witness_NextPcComesFromItsSource :
    effectiveAddress State.reset.params.eaOverflow ((State.reset.setReg 2 0xFFFF).reg 2) ((1#9).setWidth 16) = .ok 0 ∧
    State.reset.fsm ≠ .fault ∧ ∃ t, exec (.jmp 2 1) (State.reset.setReg 2 0xFFFF) = .next t ∧ t.fsm ≠ .fault :=
  ⟨rfl, by decide, _, rfl, by decide⟩

theorem witness_FaultsArePrecise :
    (withWord 0xD000).fsm = .fetch ∧ (withWord 0xD000).run = true ∧
    ∃ t, step (withWord 0xD000) = .next t ∧ t.fsm = .fault := ⟨rfl, rfl, _, rfl, rfl⟩

/-- One state and instruction for each cause; the address at both ends of its range. -/
theorem witness_EachFormRaisesItsOwnErrorOnly :
    State.reset.fsm ≠ .fault ∧
    (∃ t, exec (.reserved 0) State.reset = .next t ∧ t.fsm = .fault) ∧
    (∃ t, exec (.push 0) (State.reset.setSp 0xFF00) = .next t ∧ t.fsm = .fault) ∧
    (∃ t, exec (.pop 0) State.reset = .next t ∧ t.fsm = .fault) ∧
    (∃ t, exec (.ldd 0 1 1) (faulting (State.reset.setReg 1 0xFFFF)) = .next t ∧ t.fsm = .fault ∧
      t.fault.map (·.info) = some (.address 0x10000)) ∧
    ∃ t, exec (.ldx 0 1 1) (faulting (State.reset.setReg 1 0xFFFF)) = .next t ∧ t.fsm = .fault ∧
      t.fault.map (·.info) = some (.address 0x1FFFE) :=
  ⟨by decide, ⟨_, rfl, rfl⟩, ⟨_, rfl, rfl⟩, ⟨_, rfl, rfl⟩, ⟨_, rfl, rfl, rfl⟩, _, rfl, rfl, rfl⟩

/-- A run of MOVI and HLT, the word after them a PUSH that nothing fetches. -/
theorem witness_RunWithoutErrorCausesIsFaultFree :
    let s : State := { withWord 0x5801 with mem := [(0, 0x5801), (1, 0xF000), (2, 0xC000)] }
    s.fsm ≠ .fault ∧ s.params.eaOverflow = .wrap ∧
    ∀ j < 3, (runFor j s).fsm = .fetch → (runFor j s).steps < s.params.stepBudget →
      (decodeWord (runFor j s).fetchWord).valid = true ∧ isStackOp (decodeWord (runFor j s).fetchWord) = false := by decide

/-- The last cycle of a budget, for a completing, a halting and a faulting word. -/
theorem witness_StepRunsTheDecodedInstruction :
    let s (w : Word) : State := { State.resetWith (budgeted 1) with mem := [(0, w)] }
    (s 0x5801).fsm = .fetch ∧ (s 0x5801).steps < (s 0x5801).params.stepBudget ∧
    decodeWord ((s 0x5801).word (s 0x5801).pc.toNat) = .movi 0 1 ∧
    decodeWord ((s 0xF000).word (s 0xF000).pc.toNat) = .hlt ∧
    decodeWord ((s 0xD000).word (s 0xD000).pc.toNat) = .pop 0 := by decide

theorem witness_StepIsDefinedExactlyAtFetch :
    State.reset.fsm = .fetch ∧ { State.reset with fsm := .halted }.fsm ≠ .fetch ∧
    { State.reset with fsm := .flagUpdate }.fsm ≠ .fetch := by decide

theorem witness_BudgetStopsTheRun :
    let s : State := { State.resetWith (budgeted 1) with mem := [(0, 0xF000)] }
    (s.fsm = .fetch ∧ s.params.stepBudget ≤ { s with steps := 1 }.steps) ∧
    (s.fsm = .fetch ∧ s.steps + 1 = s.params.stepBudget ∧ decodeWord s.fetchWord = .hlt) ∧
    (budgeted 0).stepBudget = 0 ∧ ∃ u, boot (budgeted 0) [0xF000] = .ok u :=
  ⟨by decide, by decide, rfl, _, rfl⟩

theorem witness_TerminalStatesAreFrozen :
    { State.reset with fsm := .halted }.fsm.terminal = true ∧ { State.reset with fsm := .budget }.fsm.terminal = true ∧
    { State.reset with fsm := .fault }.fsm.terminal = true := by decide

theorem witness_ObserverSeesCompletedCycles :
    (withWord 0xF000).fsm = .fetch ∧ (∃ t, step (withWord 0xF000) = .next t ∧ t.fsm ≠ .fault ∧ t.fsm ≠ .budget) ∧
    (∃ t, step (withWord 0x4C00) = .next t ∧ t.fsm = .fault) ∧
    ∃ t, step (State.resetWith (budgeted 0)) = .next t ∧ t.fsm = .budget :=
  ⟨rfl, ⟨_, rfl, by decide, by decide⟩, ⟨_, rfl, rfl⟩, _, rfl, rfl⟩

theorem witness_TerminationPortReports :
    { State.reset with fsm := .halted, status := .halt }.fsm.terminal = true ∧ State.reset.fsm.terminal = false := by
  decide

theorem witness_FivePhasesAreOneStep : State.reset.fsm = .fetch := rfl

theorem witness_EveryRunEndsWithinTheBudget :
    (State.resetWith (budgeted 1)).fsm = .fetch ∧
    (State.resetWith (budgeted 1)).params.stepBudget - (State.resetWith (budgeted 1)).steps < 2 ∧
    ∃ s, boot (budgeted 1) [] = .ok s := ⟨rfl, by decide, _, rfl⟩

/-- A sound state with the stack at its floor, from which a step completes. -/
theorem witness_EveryStepKeepsSoundness :
    Sound ((withWord 0xD000).setSp 0xFF00) ∧ ∃ t, step ((withWord 0xD000).setSp 0xFF00) = .next t ∧ t.fsm = .fetch :=
  ⟨{ params := by decide, stack := by decide, memory := by decide, lr := rfl, rom := by decide, steps := by decide,
     running := by decide, halted := by decide, budget := by decide, faulted := by decide, run := by decide,
     record := by decide, agrees := fun _ h => by cases h }, _, rfl, rfl⟩

/-- Parameters at their bounds (R8), with a program that fills its ROM. -/
theorem witness_SoundAtResetAndAfterBoot :
    { Config.Params.atReset with stackFloor := 1, romCapacity := 1 }.WellFormed ∧
    ∃ s, boot { Config.Params.atReset with stackFloor := 1, romCapacity := 1 } [0xF000] = .ok s ∧ s.romLen = 1 :=
  ⟨by decide, _, rfl, rfl⟩

/-! The step budget (V4a, V4b) and the observer port. -/

theorem test_V4a_no_budget :
    (nextOf (step { State.resetWith (budgeted 0) with mem := [(0, 0xF000)] })).map (fun t => (t.status, t.ir, t.steps)) =
      some (.budgetExceeded, 0, 0) := by decide

theorem test_V4b_halt_in_last_cycle :
    (nextOf (step { State.resetWith (budgeted 1) with mem := [(0, 0xF000)] })).map (fun t => (t.status, t.ir, t.steps)) =
      some (.halt, 0xF000, 1) := by decide

theorem test_observer_shows_the_fetched_word : (observed (withWord 0x5801)).map (·.ir) = some 0x5801 := by decide
theorem test_observer_silent_on_a_fault : observed (withWord 0xD000) = none := by decide

/-- R204, R218: the termination port shows RUN, memory and the fault record of a POP on an empty stack. -/
theorem test_report_of_a_fault :
    (((nextOf (step (withWord 0xD000))).bind terminationReport).map fun r =>
      (r.code, r.snapshot.run, r.snapshot.mem.read 0, r.record.map fun f => f.snapshot.mem.read 0)) =
      some (5, true, 0xD000, some 0xD000) := by decide

theorem test_report_of_a_halt :
    (((nextOf (step (withWord 0xF000))).bind terminationReport).map fun r =>
      (r.code, r.fsm, r.snapshot.run, r.snapshot.mem.read 0, r.snapshot.steps)) =
      some (1, .halted, false, 0xF000, 1) := by decide

end Sys2Proof.Tests
end

namespace Sys2Proof.Machine

/-! ## What an instruction does, as one of eleven shapes

`exec` has one arm per instruction, but every arm is one of the shapes of Machine/Operands.lean with its operands
filled in. `shapeOf` names the shape and `exec_eq_run` ties it to `exec`; a fact about every instruction is then a fact
about eleven shapes. -/

/-- A shape of meaning, its operands already read from the state. -/
inductive Shape where
  | result  (d : Reg) (r : Word)
  | compare (r : Word)
  | put     (d : Reg) (v : Word)
  | load    (d : Reg) (addr : Except CoreError Nat)
  | store   (v : Word) (addr : Except CoreError Nat)
  | push    (v : Word)
  | pop     (d : Reg)
  | goto    (src : PcSource)
  | jump    (addr : Except CoreError Nat)
  | halt
  | fail    (e : CoreError)

/-- The meaning of a shape. -/
def Shape.run : Shape → State → Result
  | .result d r, s   => writeResult d r s
  | .compare r, s    => compareResult r s
  | .put d v, s      => .next ((s.setReg d v).sequence .inc)
  | .load d addr, s  => loadFrom d addr s
  | .store v addr, s => storeTo v addr s
  | .push v, s       => pushWord v s
  | .pop d, s        => popWord d s
  | .goto src, s     => .next (s.sequence src)
  | .jump addr, s    => jumpThrough addr s
  | .halt, s         => .next ((s.sequence .inc).setRun false)
  | .fail e, s       => raise e s

/-- The general register a shape writes. -/
def Shape.writes : Shape → Option Reg
  | .result d _ | .put d _ | .load d _ | .pop d => some d
  | .compare _ | .store _ _ | .push _ | .goto _ | .jump _ | .halt | .fail _ => none

/-- Only the shape of HLT clears RUN. -/
def Shape.halts : Shape → Bool
  | .halt => true
  | .result _ _ | .compare _ | .put _ _ | .load _ _ | .store _ _ => false
  | .push _ | .pop _ | .goto _ | .jump _ | .fail _ => false

/-- The source of a conditional branch (R28). -/
def branchSource (taken : Bool) (target : BitVec 11) : PcSource := if taken then .imm11 target else .inc

/-- The shape of an instruction, its operands read from the state it begins in. The last two lines are the
flag-producing forms, with the result R32 names. -/
def shapeOf (s : State) : Instr → Shape
  | .b imm       => .goto (.imm12 imm)
  | .beq imm     => .goto (branchSource (s.flags == .z) imm)
  | .bne imm     => .goto (branchSource (s.flags != .z) imm)
  | .bgt imm     => .goto (branchSource (s.flags == .p) imm)
  | .blt imm     => .goto (branchSource (s.flags == .n) imm)
  | .ld d r      => .load d (addrIndirect s r)
  | .ldx d r t   => .load d (addrIndexed s r t)
  | .ldd d r imm => .load d (addrOffset s r imm)
  | .ldi d imm   => .put d (zext16 imm)
  | .st r d      => .store (s.reg r) (addrIndirect s d)
  | .stx r d t   => .store (s.reg r) (addrIndexed s d t)
  | .std r d imm => .store (s.reg r) (addrOffset s d imm)
  | .reserved low => .fail (.decode (encode (.reserved low)))
  | .push r      => .push (s.reg r)
  | .pop d       => .pop d
  | .jmp d imm   => .jump (addrOffset s d imm)
  | .hlt         => .halt
  | .cmp d r     => .compare (resultOf s (.cmp d r))
  | .cmpi d imm  => .compare (resultOf s (.cmpi d imm))
  | i            => .result (i.writes.getD 0) (resultOf s i)

theorem exec_eq_run (i : Instr) (s : State) : exec i s = (shapeOf s i).run s := by cases i <;> rfl

theorem writes_shapeOf (s : State) (i : Instr) : (shapeOf s i).writes = i.writes := by cases i <;> rfl

theorem halts_shapeOf (s : State) (i : Instr) : (shapeOf s i).halts = decide (i = .hlt) := by
  cases i <;> rfl

/-- The states a shape can lead to: raised with some error, or completed. -/
inductive Shape.Next (s : State) : Shape → State → Prop
  | raised {sh : Shape} (e : CoreError) (h : sh.halts = false) : Next s sh (s.raised e)
  | result (d : Reg) (r : Word) : Next s (.result d r) (((s.setReg d r).flagged r).sequence .inc)
  | compare (r : Word) : Next s (.compare r) ((s.flagged r).sequence .inc)
  | put (d : Reg) (v : Word) : Next s (.put d v) ((s.setReg d v).sequence .inc)
  | load (d : Reg) (a : Nat) : Next s (.load d (.ok a)) ((s.setReg d (s.word a)).sequence .inc)
  | store (v : Word) (a : Nat) : Next s (.store v (.ok a)) (State.sequence { s with mem := s.mem.write a v } .inc)
  | push (v : Word) (h : s.params.stackFloor < s.sp) : Next s (.push v)
      ((State.setSp { s with mem := s.mem.write (s.sp - 1).toNat v } (s.sp - 1)).sequence .inc)
  | pop (d : Reg) (h : s.sp < Config.stackBase) : Next s (.pop d)
      (((s.setReg d (s.word s.sp.toNat)).setSp (s.sp + 1)).sequence .inc)
  | goto (src : PcSource) : Next s (.goto src) (s.sequence src)
  | jump (a : Nat) : Next s (.jump (.ok a)) (s.sequence (.mem (s.word a)))
  | halt : Next s .halt ((s.sequence .inc).setRun false)

/-- Every shape leads to a next state, and these are all of them. -/
theorem Shape.run_next (sh : Shape) (s : State) : ∃ t, sh.run s = .next t ∧ Shape.Next s sh t := by
  cases sh with
  | result d r => exact ⟨_, rfl, .result d r⟩
  | compare r => exact ⟨_, rfl, .compare r⟩
  | put d v => exact ⟨_, rfl, .put d v⟩
  | load d addr =>
    rcases loadFrom_cases d addr s with ⟨e, -, h⟩ | ⟨a, -, -, h⟩ | ⟨a, rfl, -, h⟩
    · exact ⟨_, h, .raised _ rfl⟩
    · exact ⟨_, h, .raised _ rfl⟩
    · exact ⟨_, h, .load d a⟩
  | store v addr =>
    rcases storeTo_cases v addr s with ⟨e, -, h⟩ | ⟨a, -, -, h⟩ | ⟨a, rfl, -, h⟩
    · exact ⟨_, h, .raised _ rfl⟩
    · exact ⟨_, h, .raised _ rfl⟩
    · exact ⟨_, h, .store v a⟩
  | push v =>
    rcases pushWord_cases v s with ⟨-, h⟩ | ⟨hsp, h⟩
    · exact ⟨_, h, .raised _ rfl⟩
    · exact ⟨_, h, .push v hsp⟩
  | pop d =>
    rcases popWord_cases d s with ⟨-, h⟩ | ⟨hsp, h⟩
    · exact ⟨_, h, .raised _ rfl⟩
    · exact ⟨_, h, .pop d hsp⟩
  | goto src => exact ⟨_, rfl, .goto src⟩
  | jump addr =>
    rcases jumpThrough_cases addr s with ⟨e, -, h⟩ | ⟨a, -, -, h⟩ | ⟨a, rfl, -, h⟩
    · exact ⟨_, h, .raised _ rfl⟩
    · exact ⟨_, h, .raised _ rfl⟩
    · exact ⟨_, h, .jump a⟩
  | halt => exact ⟨_, rfl, .halt⟩
  | fail e => exact ⟨_, rfl, .raised e rfl⟩

/-- Everything `exec` can do (R243): its next state is one the instruction's shape leads to. -/
theorem exec_next {i : Instr} {s t : State} (h : exec i s = .next t) : Shape.Next s (shapeOf s i) t := by
  obtain ⟨u, hu, hn⟩ := (shapeOf s i).run_next s
  rw [exec_eq_run, hu] at h
  cases h
  exact hn

/-! ## What every instruction leaves unchanged -/

theorem Shape.Next.lr {s t : State} {sh : Shape} (h : Shape.Next s sh t) : t.lr = s.lr := by
  cases h <;> rfl

theorem Shape.Next.run {s t : State} {sh : Shape} (h : Shape.Next s sh t) : t.run = (s.run && !sh.halts) := by
  cases h with
  | raised e hh => simp [hh]
  | _ => simp [Shape.halts]

theorem Shape.Next.reg {s t : State} {sh : Shape} (h : Shape.Next s sh t) {q : Reg} (hq : sh.writes ≠ some q) :
    t.reg q = s.reg q := by
  cases h with
  | result d r | put d v | load d a | pop d _ =>
    have hd : q ≠ d := fun hqd => hq (congrArg some hqd.symm)
    simp [reg_setReg_of_ne s _ hd]
  | _ => rfl

/-- Everything a step with a next state can do (R247): stop for want of budget, run into a fatal error, or complete the
cycle. -/
theorem step_next {s t : State} (h : step s = .next t) :
    t = s.outOfBudget ∨
    (∃ v, exec (decodeWord s.fetchWord) s.fetched = .next v ∧
      (v.fsm = .fault ∧ t = v ∨ v.fsm ≠ .fault ∧ t = v.continued)) := by
  have hcycle : (cycle s).1 = .next t := h
  unfold cycle at hcycle
  cases hfsm : s.fsm <;> simp only [hfsm, reduceCtorEq] at hcycle
  case fetch =>
    split at hcycle
    · cases hcycle
      exact .inl rfl
    · obtain ⟨v, hv, -⟩ := (shapeOf s.fetched (decodeWord s.fetchWord)).run_next s.fetched
      rw [← exec_eq_run] at hv
      rw [hv] at hcycle
      refine .inr ⟨v, hv, ?_⟩
      rcases endCycle_next v with ⟨hf, he⟩ | ⟨hf, he⟩ <;> rw [he] at hcycle <;> cases hcycle
      · exact .inl ⟨hf, rfl⟩
      · exact .inr ⟨hf, rfl⟩

/-- A terminal state has no step (R248). -/
theorem step_ne_next_of_terminal {s : State} (h : s.fsm.terminal = true) (t : State) : step s ≠ .next t := by
  unfold step cycle
  cases hfsm : s.fsm <;> simp_all [FsmState.terminal]

/-- What holds of a state and is kept by every step holds after every run. -/
theorem runFor_invariant {Inv : State → Prop} (hstep : ∀ s t, step s = .next t → Inv s → Inv t) (k : Nat) {s : State}
    (hs : Inv s) : Inv (runFor k s) := by
  induction k generalizing s with
  | zero => exact hs
  | succ k ih =>
    unfold runFor
    split
    next t ht => exact ih (hstep s t ht hs)
    next => exact hs
    next => exact hs

/-! ## What an instruction depends on

`Agree P F s u` relates two states that may differ in LR, IR, the fault record and the ROM length, in FLAGS unless `F`,
and in the registers outside `P`. Every instruction keeps such an agreement as long as it covers what the instruction
reads (`exec_agree`), so that it does not read something is read off at a suitable `P` and `F`. -/

/-- The states agree on the registers of `P`, on FLAGS if `F`, and on what else an outcome shows. -/
structure Agree (P : Reg → Prop) (F : Prop) (s u : State) : Prop where
  params : u.params = s.params
  regs   : ∀ r, P r → u.reg r = s.reg r
  flags  : F → u.flags = s.flags
  sp     : u.sp = s.sp
  pc     : u.pc = s.pc
  run    : u.run = s.run
  steps  : u.steps = s.steps
  fsm    : u.fsm = s.fsm
  status : u.status = s.status
  mem    : u.mem = s.mem

/-- Two outcomes are next states that agree as before, and on register `w` too unless they are faults. -/
def AgreeAfter (P : Reg → Prop) (F : Prop) (w : Option Reg) (x y : Result) : Prop :=
  ∃ t u, x = .next t ∧ y = .next u ∧ Agree (fun q => P q ∨ w = some q ∧ t.fsm ≠ .fault) F t u

section
variable {P Q : Reg → Prop} {F : Prop} {s u : State}

theorem Agree.refl (s : State) : Agree P F s s :=
  ⟨rfl, fun _ _ => rfl, fun _ => rfl, rfl, rfl, rfl, rfl, rfl, rfl, rfl⟩

theorem Agree.mono (h : Agree P F s u) (hQ : ∀ q, Q q → P q) : Agree Q F s u :=
  { h with regs := fun q hq => h.regs q (hQ q hq) }

theorem Agree.setReg (h : Agree P F s u) (d : Reg) (v : Word) :
    Agree (fun q => P q ∨ some d = some q) F (s.setReg d v) (u.setReg d v) :=
  { h with
    regs := fun q hq => by
      by_cases hqd : q = d
      · simp [hqd]
      · have hP : P q := hq.resolve_right fun hd => hqd (Option.some.inj hd).symm
        rw [reg_setReg_of_ne u v hqd, reg_setReg_of_ne s v hqd, h.regs q hP] }

theorem Agree.setSp (h : Agree P F s u) (v : Word) : Agree P F (s.setSp v) (u.setSp v) :=
  { h with sp := rfl }

theorem Agree.setRun (h : Agree P F s u) (b : Bool) : Agree P F (s.setRun b) (u.setRun b) :=
  { h with run := rfl }

theorem Agree.flagged (h : Agree P F s u) (r : Word) : Agree P F (s.flagged r) (u.flagged r) :=
  { h with flags := fun _ => by simp [h.params] }

theorem Agree.sequence (h : Agree P F s u) (src : PcSource) : Agree P F (s.sequence src) (u.sequence src) :=
  { h with pc := by simp [h.pc] }

theorem Agree.write (h : Agree P F s u) (a : Nat) (v : Word) :
    Agree P F { s with mem := s.mem.write a v } { u with mem := u.mem.write a v } :=
  { h with mem := by simp [h.mem] }

theorem Agree.raised (h : Agree P F s u) (e : CoreError) : Agree P F (s.raised e) (u.raised e) :=
  { h with fsm := rfl, status := rfl }

theorem Agree.word (h : Agree P F s u) (a : Nat) : u.word a = s.word a := by simp [State.word, h.mem]

theorem Agree.memRead (h : Agree P F s u) (a : Nat) : memRead u a = memRead s a := by
  simp [Machine.memRead, h.mem]

theorem Agree.addrPush (h : Agree P F s u) : addrPush u = addrPush s := by
  simp [Machine.addrPush, h.sp, h.params]

theorem Agree.addrPop (h : Agree P F s u) : addrPop u = addrPop s := by simp [Machine.addrPop, h.sp]

/-- Two next states that agree on the register written as well. -/
theorem Agree.after {w : Option Reg} {t v : State} (h : Agree (fun q => P q ∨ w = some q) F t v) :
    AgreeAfter P F w (.next t) (.next v) :=
  ⟨t, v, rfl, rfl, h.mono fun _ hq => hq.imp_right And.left⟩

/-- Nothing is written, so nothing more need agree. -/
theorem Agree.after_none {t v : State} (h : Agree P F t v) : AgreeAfter P F none (.next t) (.next v) :=
  Agree.after (h.mono fun _ hq => hq.resolve_right (Option.some_ne_none _ ·.symm))

/-- The same error raised in both states: the register is not written, and both are faults. -/
theorem Agree.after_raise (h : Agree P F s u) (w : Option Reg) (e : CoreError) :
    AgreeAfter P F w (raise e s) (raise e u) :=
  ⟨_, _, rfl, rfl, (h.raised e).mono fun _ hq => hq.resolve_right fun hf => hf.2 rfl⟩

theorem Agree.loadFrom (h : Agree P F s u) (d : Reg) (addr : Except CoreError Nat) :
    AgreeAfter P F (some d) (loadFrom d addr s) (loadFrom d addr u) := by
  unfold Machine.loadFrom
  cases addr with
  | error e => exact h.after_raise _ e
  | ok a =>
    simp only [h.memRead]
    cases Machine.memRead s a with
    | error e => exact h.after_raise _ e
    | ok v => exact ((h.setReg d v).sequence .inc).after

theorem Agree.jumpThrough (h : Agree P F s u) (addr : Except CoreError Nat) :
    AgreeAfter P F none (jumpThrough addr s) (jumpThrough addr u) := by
  unfold Machine.jumpThrough
  cases addr with
  | error e => exact h.after_raise _ e
  | ok a =>
    simp only [h.memRead]
    cases Machine.memRead s a with
    | error e => exact h.after_raise _ e
    | ok v => exact (h.sequence (.mem v)).after_none

theorem Agree.storeTo (h : Agree P F s u) (v : Word) (addr : Except CoreError Nat) :
    AgreeAfter P F none (storeTo v addr s) (storeTo v addr u) := by
  unfold Machine.storeTo
  cases addr with
  | error e => exact h.after_raise _ e
  | ok a =>
    rcases Nat.lt_or_ge a Config.memWords with ha | ha
    · simp only [memWrite_of_lt _ v ha]
      exact ((h.write a v).sequence .inc).after_none
    · simp only [memWrite_of_ge _ v ha]
      exact h.after_raise _ _

theorem Agree.pushWord (h : Agree P F s u) (v : Word) : AgreeAfter P F none (pushWord v s) (pushWord v u) := by
  unfold Machine.pushWord
  rw [h.addrPush, h.sp]
  cases Machine.addrPush s with
  | error e => exact h.after_raise _ e
  | ok a =>
    rcases Nat.lt_or_ge a Config.memWords with ha | ha
    · simp only [memWrite_of_lt _ v ha]
      exact (((h.write a v).setSp _).sequence .inc).after_none
    · simp only [memWrite_of_ge _ v ha]
      exact h.after_raise _ _

theorem Agree.popWord (h : Agree P F s u) (d : Reg) : AgreeAfter P F (some d) (popWord d s) (popWord d u) := by
  unfold Machine.popWord
  rw [h.addrPop, h.sp]
  cases Machine.addrPop s with
  | error e => exact h.after_raise _ e
  | ok a =>
    simp only [h.memRead]
    cases Machine.memRead s a with
    | error e => exact h.after_raise _ e
    | ok v => exact (((h.setReg d v).setSp _).sequence .inc).after

/-- A shape run in two states that agree gives outcomes that agree. -/
theorem Agree.shape_run (h : Agree P F s u) (sh : Shape) : AgreeAfter P F sh.writes (sh.run s) (sh.run u) := by
  cases sh with
  | result d r => exact (((h.setReg d r).flagged r).sequence .inc).after
  | compare r => exact ((h.flagged r).sequence .inc).after_none
  | put d v => exact ((h.setReg d v).sequence .inc).after
  | load d addr => exact h.loadFrom d addr
  | store v addr => exact h.storeTo v addr
  | push v => exact h.pushWord v
  | pop d => exact h.popWord d
  | goto src => exact (h.sequence src).after_none
  | jump addr => exact h.jumpThrough addr
  | halt => exact ((h.sequence .inc).setRun false).after_none
  | fail e => exact h.after_raise _ e

end

/-- The forms whose meaning reads FLAGS: the conditional branches (R32). -/
def readsFlags : Instr → Bool
  | .beq _ | .bne _ | .bgt _ | .blt _ => true
  | _ => false

section
variable {P : Reg → Prop} {F : Prop} {s u : State}

/-- The named result depends on the registers R23 lists as read, and on nothing else. -/
theorem resultOf_congr {i : Instr} (h : ∀ r ∈ i.reads, u.reg r = s.reg r) : resultOf u i = resultOf s i := by
  cases i <;> simp_all [resultOf, Instr.reads]

theorem Agree.shapeOf_eq (h : Agree P F s u) {i : Instr} (hreads : ∀ r ∈ i.reads, P r)
    (hflags : readsFlags i = true → F) : shapeOf u i = shapeOf s i := by
  have hregs : ∀ r ∈ i.reads, u.reg r = s.reg r := fun r hr => h.regs r (hreads r hr)
  have hresult : resultOf u i = resultOf s i := resultOf_congr hregs
  cases i
  case beq | bne | bgt | blt => simp only [shapeOf, h.flags (hflags rfl)]
  case ld | ldx | ldd | st | stx | std | push | jmp =>
    simp_all [shapeOf, Instr.reads, addrIndirect, addrIndexed, addrOffset, h.params]
  case b | ldi | reserved | pop | hlt => rfl
  all_goals simp only [shapeOf, hresult]

/-- An instruction run in two states that agree on all it reads gives outcomes that agree, on the register it writes
too (R23, R32). -/
theorem exec_agree (h : Agree P F s u) {i : Instr} (hreads : ∀ r ∈ i.reads, P r) (hflags : readsFlags i = true → F) :
    AgreeAfter P F i.writes (exec i s) (exec i u) := by
  rw [exec_eq_run, exec_eq_run, h.shapeOf_eq hreads hflags, ← writes_shapeOf s i]
  exact h.shape_run _

end

/-! ## FLAGS (R31, R33) -/

theorem flagsOf_eq_z_iff (mode : Config.FlagMode) (r : Word) : flagsOf mode r = .z ↔ r = 0 := by
  rcases flagsOf_cases mode r with ⟨hr, hf⟩ | ⟨hr, -, -, hf⟩ | ⟨hr, -, hf⟩
  · exact iff_of_true hf hr
  · exact iff_of_false (by simp [hf]) hr
  · exact iff_of_false (by simp [hf]) hr

/-- The sign bit is the sign of the signed reading (R11). -/
theorem msb_iff_toInt_neg (r : Word) : r.msb = true ↔ r.toInt < 0 := by
  rw [BitVec.msb_eq_toInt, decide_eq_true_iff]

/-- A nonzero word has a positive signed reading exactly when its sign bit is clear. -/
theorem toInt_pos_iff {r : Word} (hr : r ≠ 0) : 0 < r.toInt ↔ r.msb = false := by
  have hne : r.toInt ≠ 0 := fun h => hr (BitVec.eq_of_toInt_eq (by simpa using h))
  rw [← Bool.not_eq_true, msb_iff_toInt_neg]
  omega

theorem flagsOf_eq_n_iff (mode : Config.FlagMode) (r : Word) :
    flagsOf mode r = .n ↔ mode = .signed ∧ r.toInt < 0 := by
  rw [← msb_iff_toInt_neg]
  rcases flagsOf_cases mode r with ⟨hr, hf⟩ | ⟨-, hm, hn, hf⟩ | ⟨-, rfl | hn, hf⟩
  · exact iff_of_false (by simp [hf]) (by simp [hr])
  · exact iff_of_true hf ⟨hm, hn⟩
  · simp [hf]
  · simp [hf, hn]

theorem flagsOf_eq_p_iff (mode : Config.FlagMode) (r : Word) :
    flagsOf mode r = .p ↔ r ≠ 0 ∧ (mode = .sourceLiteral ∨ 0 < r.toInt) := by
  rcases flagsOf_cases mode r with ⟨hr, hf⟩ | ⟨hr, hm, hn, hf⟩ | ⟨hr, hm, hf⟩
  · exact iff_of_false (by simp [hf]) fun h => h.1 hr
  · exact iff_of_false (by simp [hf]) (by simp [hm, toInt_pos_iff hr, hn])
  · exact iff_of_true hf ⟨hr, by rwa [toInt_pos_iff hr]⟩

/-- Settles O38, from the three values of the derivation. -/
theorem flagsOfDerivesSignAndZero : Obligations.FlagsOfDerivesSignAndZero := by
  intro mode r
  refine ⟨flagsOf_eq_z_iff mode r, flagsOf_eq_n_iff mode r, flagsOf_eq_p_iff mode r, ?_⟩
  cases flagsOf mode r <;> simp

/-- Settles O39: each of the three values has its pattern, and no other pattern has a value. -/
theorem flagsEncodingIsOneHot : Obligations.FlagsEncodingIsOneHot := by
  refine ⟨rfl, rfl, rfl, fun f => by cases f <;> simp, fun b => ⟨?_, ?_⟩⟩
  · rintro ⟨f, rfl⟩
    cases f <;> simp [Flag.oneHot]
  · rintro (rfl | rfl | rfl)
    exacts [⟨.n, rfl⟩, ⟨.z, rfl⟩, ⟨.p, rfl⟩]

/-! ## General registers (R23) -/

/-- A state and the same state with another value in register `q` agree on every other register. -/
theorem agree_setReg (s : State) (q : Reg) (v : Word) : Agree (· ≠ q) True s (s.setReg q v) :=
  { Agree.refl (P := (· ≠ q)) s with regs := fun _ hr => reg_setReg_of_ne s v hr }

/-- Settles O42: the frame of every shape, and agreement on every register but `q`. -/
theorem registersReadAndWritten : Obligations.RegistersReadAndWritten := by
  refine ⟨fun i s t q ht hw => (exec_next ht).reg (by rwa [writes_shapeOf]), fun i s t q v ht hq => ?_⟩
  have hreads : ∀ r ∈ i.reads, r ≠ q := fun r hr hrq => hq (hrq ▸ hr)
  obtain ⟨t', u, ht', hu, h⟩ := exec_agree (agree_setReg s q v) hreads fun _ => trivial
  cases ht.symm.trans ht'
  exact ⟨u, hu, fun r hr => h.regs r (.inl hr), fun hw hf _ => h.regs q (.inr ⟨hw, hf⟩), h.sp, h.pc, h.run,
    h.flags trivial, h.word, h.fsm, h.status⟩

/-! ## LR (R26) -/

/-- A state and the same state with another LR agree on everything an instruction can look at. -/
theorem agree_lr (s : State) (v : Word) : Agree (fun _ => True) True s { s with lr := v } :=
  { Agree.refl s with }

theorem step_lr {s t : State} (h : step s = .next t) : t.lr = s.lr := by
  rcases step_next h with rfl | ⟨v, hv, ⟨-, rfl⟩ | ⟨-, rfl⟩⟩
  · rfl
  · exact (exec_next hv).lr
  · simpa using (exec_next hv).lr

theorem boot_lr {p : Config.Params} {program : List Word} {s : State} (h : boot p program = .ok s) : s.lr = 0 := by
  unfold boot at h
  rcases load_cases program (State.resetWith p) with ⟨-, hl⟩ | ⟨-, -, hl⟩ | ⟨-, -, hl⟩ <;> rw [hl] at h <;> cases h
  rfl

/-- Settles O44: no step writes LR, every instruction keeps an agreement that leaves LR out, and LR = 0 is an invariant
of the run. -/
theorem linkRegisterIsInert : Obligations.LinkRegisterIsInert := by
  refine ⟨fun s t => step_lr, fun i s t v ht => ?_, fun p program s k hs => ?_, fun _ => rfl⟩
  · obtain ⟨t', u, ht', hu, h⟩ := exec_agree (agree_lr s v) (i := i) (fun _ _ => trivial) fun _ => trivial
    cases ht.symm.trans ht'
    exact ⟨u, hu, h.flags trivial,
      { regs := fun r => h.regs r (.inl trivial), sp := h.sp, pc := h.pc, run := h.run, memory := h.word,
        fsm := h.fsm, status := h.status, steps := h.steps }⟩
  · exact runFor_invariant (Inv := fun s => s.lr = 0) (fun s t ht hs => (step_lr ht).trans hs) k (boot_lr hs)

/-! ## RUN (R35) -/

theorem exec_run {i : Instr} {s t : State} (h : exec i s = .next t) : t.run = if i = .hlt then false else s.run := by
  rw [(exec_next h).run, halts_shapeOf]
  split <;> simp_all

/-- A step that ends with RUN = 0 ends the run: for want of budget, by a fatal error, or halted (R245). -/
theorem terminal_of_step_run_false {s t : State} (h : step s = .next t) (hrun : t.run = false) :
    t.fsm.terminal = true := by
  rcases step_next h with rfl | ⟨v, -, ⟨hf, rfl⟩ | ⟨-, rfl⟩⟩
  · rfl
  · rw [hf]
    rfl
  · rw [continued_run] at hrun
    simp [hrun, FsmState.terminal]

/-- Settles O45: the RUN clause of every shape, and the three ends of a step. -/
theorem runIsClearedByHaltOnly : Obligations.RunIsClearedByHaltOnly :=
  ⟨fun _ => rfl, fun _ _ _ => exec_run, fun _ _ ht hrun =>
    have hterminal := terminal_of_step_run_false ht hrun
    ⟨hterminal, step_ne_next_of_terminal hterminal⟩⟩

/-! ## Reset (R40) -/

theorem reg_resetWith (p : Config.Params) (r : Reg) : (State.resetWith p).reg r = 0 := by
  simp [State.reg, State.resetWith, Vector.get_eq_getElem]

/-- Settles O1: each field of the reset state, read off. -/
theorem resetGivesR40Values : Obligations.ResetGivesR40Values := fun p =>
  ⟨reg_resetWith p, rfl, rfl, rfl, rfl, rfl, rfl, rfl, rfl, rfl, rfl⟩

end Sys2Proof.Machine


namespace Sys2Proof.Machine

/-! ## Memory through an address operand (R60, R61, R64, R74)

An address operand that yields an address yields one below MEM_WORDS, so the controller's guard passes and the access is
made. No lemma here asks which region the address lies in (R65). -/

section
variable {s : State} {a : Nat}

/-! The word at an address after a write of the memory. -/

theorem word_write_self (s : State) (a : Nat) (v : Word) : State.word { s with mem := s.mem.write a v } a = v :=
  read_write_self s.mem a v

theorem sameMemoryExcept_write (s : State) (a : Nat) (v : Word) :
    SameMemoryExcept a s { s with mem := s.mem.write a v } :=
  fun _ hb => read_write_of_ne s.mem v hb

/-! Every address operand is a 16-bit address. -/

theorem addrIndirect_ok_lt {r : Reg} (h : addrIndirect s r = .ok a) : a < Config.memWords := by
  cases h
  exact toNat_lt_memWords _

theorem addrIndexed_ok_lt {r q : Reg} (h : addrIndexed s r q = .ok a) : a < Config.memWords :=
  effectiveAddress_ok_lt h

theorem addrOffset_ok_lt {n : Nat} {r : Reg} {off : BitVec n} (h : addrOffset s r off = .ok a) :
    a < Config.memWords :=
  effectiveAddress_ok_lt h

theorem addrPush_ok_lt (h : addrPush s = .ok a) : a < Config.memWords := by
  rcases addrPush_cases s with ⟨-, he⟩ | ⟨-, he⟩ <;> cases he.symm.trans h
  exact toNat_lt_memWords _

theorem addrPop_ok_lt (h : addrPop s = .ok a) : a < Config.memWords := by
  rcases addrPop_cases s with ⟨-, he⟩ | ⟨-, he⟩ <;> cases he.symm.trans h
  exact toNat_lt_memWords _

/-! The shapes that access memory, at an address their operand yields. -/

theorem loadFrom_ok (s : State) (d : Reg) (ha : a < Config.memWords) :
    loadFrom d (.ok a) s = .next ((s.setReg d (s.word a)).sequence .inc) := by
  simp only [loadFrom, memRead_of_lt s ha]

theorem jumpThrough_ok (s : State) (ha : a < Config.memWords) :
    jumpThrough (.ok a) s = .next (s.sequence (.mem (s.word a))) := by
  simp only [jumpThrough, memRead_of_lt s ha]

theorem popWord_of_addrPop (d : Reg) (h : addrPop s = .ok a) :
    popWord d s = .next (((s.setReg d (s.word a)).setSp (s.sp + 1)).sequence .inc) := by
  simp only [popWord, h, memRead_of_lt s (addrPop_ok_lt h)]

theorem storeTo_ok (s : State) (v : Word) (ha : a < Config.memWords) :
    storeTo v (.ok a) s = .next (State.sequence { s with mem := s.mem.write a v } .inc) := by
  simp only [storeTo, memWrite_of_lt s v ha]

theorem pushWord_of_addrPush (v : Word) (h : addrPush s = .ok a) :
    pushWord v s = .next ((State.setSp { s with mem := s.mem.write a v } (s.sp - 1)).sequence .inc) := by
  simp only [pushWord, h, memWrite_of_lt s v (addrPush_ok_lt h)]

/-! The effect of a store, frame included. -/

theorem storeEffect_write (s : State) (a : Nat) (v sp' : Word) :
    StoreEffect a v sp' s ((State.setSp { s with mem := s.mem.write a v } sp').sequence .inc) where
  stored := word_write_self s a v
  memory := sameMemoryExcept_write s a v
  regs _ := rfl
  flags := rfl
  pc := rfl
  sp := rfl
  run := rfl
  bookkeep := ⟨rfl, rfl, rfl, rfl, rfl, rfl, rfl, rfl⟩

/-- ST, STX and STD leave SP at its value. -/
theorem storeTo_effect (s : State) (v : Word) (ha : a < Config.memWords) :
    ∃ t, storeTo v (.ok a) s = .next t ∧ StoreEffect a v s.sp s t :=
  ⟨_, storeTo_ok s v ha, storeEffect_write s a v s.sp⟩

theorem pushWord_effect (v : Word) (h : addrPush s = .ok a) :
    ∃ t, pushWord v s = .next t ∧ StoreEffect a v (s.sp - 1) s t :=
  ⟨_, pushWord_of_addrPush v h, storeEffect_write s a v (s.sp - 1)⟩

end

/-! ## A stored word is the word read and fetched (R67, R78) -/

/-- All readers of an address see the one word that stands there: there is no second copy for the fetch. -/
theorem readsAs_word (u : State) (a : Nat) : ReadsAs a (u.word a) u where
  ld d r h := by
    show loadFrom d (addrIndirect u r) u = _
    rw [h, loadFrom_ok u d (addrIndirect_ok_lt h)]
  ldx d r q h := by
    show loadFrom d (addrIndexed u r q) u = _
    rw [h, loadFrom_ok u d (addrIndexed_ok_lt h)]
  ldd d r imm h := by
    show loadFrom d (addrOffset u r imm) u = _
    rw [h, loadFrom_ok u d (addrOffset_ok_lt h)]
  pop d h := popWord_of_addrPop d h
  jmp d imm h := by
    show jumpThrough (addrOffset u d imm) u = _
    rw [h, jumpThrough_ok u (addrOffset_ok_lt h)]
  fetch h := by
    subst h
    exact ⟨rfl, rfl⟩

/-- A completed store is seen by every state that still holds the word. -/
theorem storedAndSeen_of_effect {i : Instr} {s : State} {a : Nat} {v sp' : Word}
    (h : ∃ t, exec i s = .next t ∧ StoreEffect a v sp' s t) : StoredAndSeen i a v sp' s := by
  obtain ⟨t, ht, heffect⟩ := h
  refine ⟨t, ht, heffect, fun u hu => ?_⟩
  have hword : u.word a = v := hu.trans heffect.stored
  exact hword ▸ readsAs_word u a

/-- A form with the meaning of a store performs it and the word is seen, once its operand is an address. -/
theorem storedAndSeen_of_storeTo {i : Instr} {s : State} {a : Nat} {v : Word} {addr : Except CoreError Nat}
    (hexec : exec i s = storeTo v addr s) (haddr : addr = .ok a) (ha : a < Config.memWords) :
    StoredAndSeen i a v s.sp s :=
  storedAndSeen_of_effect (by rw [hexec, haddr]; exact storeTo_effect s v ha)

/-- Settles O14, form by form; the region of the address is not used, since no store looks at it. -/
theorem storesIntoRomArePerformedAndFetched : Obligations.StoresIntoRomArePerformedAndFetched := by
  intro s r a _
  refine ⟨fun d h => ?st, fun d q h => ?stx, fun d imm h => ?std, fun h => ?push⟩
  case st => exact storedAndSeen_of_storeTo (exec_eq_run _ s) h (addrIndirect_ok_lt h)
  case stx => exact storedAndSeen_of_storeTo (exec_eq_run _ s) h (addrIndexed_ok_lt h)
  case std => exact storedAndSeen_of_storeTo (exec_eq_run _ s) h (addrOffset_ok_lt h)
  case push => exact storedAndSeen_of_effect (pushWord_effect (s.reg r) h)

/-! ## The memory controller's port (R60, R61) -/

/-- Settles O12, from the two cases of the guard on each access. -/
theorem controllerReadsAndWrites : Obligations.ControllerReadsAndWrites := by
  refine ⟨fun s a ha => ⟨memRead_of_ge s ha, fun v => memWrite_of_ge s v ha⟩, fun s a ha => memRead_of_lt s ha,
    fun s a v ha => ?write, fun _ _ _ _ h => effectiveAddress_ok_lt h, toNat_lt_memWords⟩
  exact ⟨_, memWrite_of_lt s v ha, word_write_self s a v, sameMemoryExcept_write s a v, rfl⟩

end Sys2Proof.Machine


namespace Sys2Proof

/-! ## The match and mask table and the dispatch (R98, R99, R108)

Both halves of R108 are facts about the table alone. Complete: a mask looks only at the bits the dispatch looks at, and
for each value of these bits the row of the selected form matches. Unambiguous: two rows that could match one word have
one form. With one row per form, the row that selects a word is then the row of its form. -/

/-- The row of a form: the table lists the forms in the order of `Form`. -/
def rowOf (f : Form) : FormRow := formTable[f.ctorIdx]'(by cases f <;> decide)

@[simp] theorem form_rowOf (f : Form) : (rowOf f).form = f := by cases f <;> rfl

theorem rowOf_mem (f : Form) : rowOf f ∈ formTable := List.getElem_mem _

theorem filter_form_eq (f : Form) : formTable.filter (fun r => r.form = f) = [rowOf f] := by
  cases f <;> rfl

theorem eq_rowOf {r : FormRow} (hr : r ∈ formTable) : r = rowOf r.form := by
  have h : r ∈ formTable.filter (fun q => q.form = r.form) := by simp [hr]
  rwa [filter_form_eq, List.mem_singleton] at h

theorem selects_iff {r : FormRow} {w : Word} : r.selects w = true ↔ w &&& r.mask = r.pattern := by
  simp [FormRow.selects]

/-- The word that has the bits the dispatch looks at as given, and 0 elsewhere. -/
def selectorWord (op : BitVec 4) (b11 b10 b0 : Bool) : Word :=
  field 12 op ||| field 11 (BitVec.ofBool b11) ||| field 10 (BitVec.ofBool b10) ||| field 0 (BitVec.ofBool b0)

theorem selectorWord_eq (w : Word) :
    selectorWord (slice 12 4 w) (bit 11 w) (bit 10 w) (bit 0 w) = w &&& 0xFC01#16 := by
  apply BitVec.eq_of_getLsbD_eq
  intro i hi
  interval_cases i <;> simp [selectorWord, field, slice, bit]

theorem selector_and_mask (f : Form) : 0xFC01#16 &&& (rowOf f).mask = (rowOf f).mask := by
  cases f <;> rfl

/-- Completeness on the 128 values of the bits the dispatch looks at. -/
theorem rowOf_selectForm_selects : ∀ (op : BitVec 4) (b11 b10 b0 : Bool),
    (rowOf (selectForm op b11 b10 b0)).selects (selectorWord op b11 b10 b0) = true := by
  decide

theorem rowOf_formOf_selects (w : Word) : (rowOf (formOf w)).selects w = true := by
  have h := rowOf_selectForm_selects (slice 12 4 w) (bit 11 w) (bit 10 w) (bit 0 w)
  rw [← formOf_eq_selectForm, selectorWord_eq, selects_iff, BitVec.and_assoc, selector_and_mask] at h
  exact selects_iff.2 h

/-- Rows whose patterns agree wherever both masks look have one form. -/
theorem form_eq_of_compatible : ∀ r ∈ formTable, ∀ q ∈ formTable,
    r.pattern &&& q.mask = q.pattern &&& r.mask → r.form = q.form := by
  decide

theorem form_eq_of_selects {r q : FormRow} {w : Word} (hr : r ∈ formTable) (hq : q ∈ formTable)
    (hrw : r.selects w = true) (hqw : q.selects w = true) : r.form = q.form := by
  apply form_eq_of_compatible r hr q hq
  calc r.pattern &&& q.mask = w &&& r.mask &&& q.mask := by rw [selects_iff.1 hrw]
    _ = w &&& q.mask &&& r.mask := by rw [BitVec.and_assoc, BitVec.and_comm r.mask, ← BitVec.and_assoc]
    _ = q.pattern &&& r.mask := by rw [selects_iff.1 hqw]

theorem selects_iff_form_eq {r : FormRow} (hr : r ∈ formTable) (w : Word) :
    r.selects w = true ↔ r.form = formOf w := by
  refine ⟨fun h => ?form, fun h => ?selects⟩
  case form => rw [form_eq_of_selects hr (rowOf_mem _) h (rowOf_formOf_selects w), form_rowOf]
  case selects =>
    rw [eq_rowOf hr, h]
    exact rowOf_formOf_selects w

theorem filter_selects (w : Word) : formTable.filter (fun r => r.selects w) = [rowOf (formOf w)] := by
  rw [← filter_form_eq]
  refine List.filter_congr fun r hr => ?_
  rw [Bool.eq_iff_iff, selects_iff_form_eq hr, decide_eq_true_iff]

/-- Settles O7: the one row that selects a word is the row of its form. -/
theorem matchMaskTableSelectsOneRow : Obligations.MatchMaskTableSelectsOneRow :=
  ⟨rfl, fun w => ⟨rowOf (formOf w), rowOf_mem _, filter_selects w,
    (form_rowOf _).trans (form_decodeWord w).symm, (form_rowOf _).symm⟩⟩

/-! ## The reserved pattern (R100) -/

theorem valid_eq_false_iff {i : Instr} : i.valid = false ↔ i.form = .reserved := by
  cases i <;> simp [Instr.valid, Instr.form]

theorem formOf_eq_reserved_iff (w : Word) : formOf w = .reserved ↔ w &&& 0xFC00#16 = 0x4C00#16 := by
  rw [eq_comm, ← form_rowOf .reserved, ← selects_iff_form_eq (rowOf_mem _) w, selects_iff]
  rfl

theorem valid_decodeWord_eq_false_iff (w : Word) : (decodeWord w).valid = false ↔ w &&& 0xFC00#16 = 0x4C00#16 := by
  rw [valid_eq_false_iff, form_decodeWord, formOf_eq_reserved_iff]

theorem slice_setWidth {n m : Nat} (lo : Nat) (w : Word) (h : m ≤ n) : (slice lo n w).setWidth m = slice lo m w := by
  apply BitVec.eq_of_getLsbD_eq
  intro i hi
  simp [slice, hi, show i < n by omega]

/-- The reserved encoding keeps the low ten bits of its word. -/
theorem decodeWord_of_reserved {w : Word} (h : w &&& 0xFC00#16 = 0x4C00#16) :
    decodeWord w = .reserved (slice 0 10 w) := by
  rw [decodeWord_of_form ((formOf_eq_reserved_iff w).2 h), Form.build, Fields.ofWord, slice_setWidth 0 w (by decide)]

theorem and_or_field_slice_low (w : Word) : w &&& 0xFC00#16 ||| field 0 (slice 0 10 w) = w := by
  apply BitVec.eq_of_getLsbD_eq
  intro i hi
  interval_cases i <;> simp [field, slice]

theorem encode_reserved_slice {w : Word} (h : w &&& 0xFC00#16 = 0x4C00#16) :
    encode (.reserved (slice 0 10 w)) = w := by
  rw [encode, ← h, and_or_field_slice_low]

theorem encode_reserved_and_mask (low : BitVec 10) : encode (.reserved low) &&& 0xFC00#16 = 0x4C00#16 := by
  rw [encode, or_and_mask, field_and_mask low _ (by decide)]
  rfl

theorem decodeWord_encode_reserved (low : BitVec 10) : decodeWord (encode (.reserved low)) = .reserved low := by
  rw [decodeWord_of_reserved (encode_reserved_and_mask low), encode, slice_or, slice_field_same low (by decide)]
  simp

/-! ## Ignored bits (R101)

Words that agree outside the ignored bits have one form, since the row's mask does not look at these bits, and give its
operands the same values, since no field of the form reaches into them. -/

theorem slice_and_mask {lo n : Nat} (w mask : Word) (h : slice lo n mask = BitVec.allOnes n) :
    slice lo n (w &&& mask) = slice lo n w := by
  unfold slice at h ⊢
  rw [BitVec.extractLsb'_and, h, BitVec.and_allOnes]

theorem regField_and_mask {lo : Nat} (w mask : Word) (h : slice lo 3 mask = BitVec.allOnes 3) :
    regField lo (w &&& mask) = regField lo w := by
  rw [regField, regField, slice_and_mask w mask h]

theorem not_ignored_and_mask (f : Form) : ~~~ (rowOf f).ignored &&& (rowOf f).mask = (rowOf f).mask := by
  cases f <;> rfl

/-- The operands of a form do not depend on its ignored bits; the reserved pattern alone keeps them. -/
theorem build_and_not_ignored {f : Form} (hf : f ≠ .reserved) (w : Word) :
    f.build (Fields.ofWord (w &&& ~~~ (rowOf f).ignored)) = f.build (Fields.ofWord w) := by
  cases f with
  | reserved => exact absurd rfl hf
  | _ => simp (disch := decide) only [Form.build, Fields.ofWord, slice_and_mask, regField_and_mask]

section
variable {w w' : Word}

theorem formOf_eq_of_and_not_ignored
    (h : w &&& ~~~ (rowOf (formOf w)).ignored = w' &&& ~~~ (rowOf (formOf w)).ignored) : formOf w' = formOf w := by
  have hw := selects_iff.1 (rowOf_formOf_selects w)
  have hw' : (rowOf (formOf w)).selects w' = true := by
    rw [selects_iff, ← hw, ← not_ignored_and_mask, ← BitVec.and_assoc, ← BitVec.and_assoc, h]
  rw [← (selects_iff_form_eq (rowOf_mem _) w').1 hw', form_rowOf]

theorem decodeWord_eq_of_and_not_ignored (hvalid : (decodeWord w).valid = true)
    (h : w &&& ~~~ (rowOf (formOf w)).ignored = w' &&& ~~~ (rowOf (formOf w)).ignored) :
    decodeWord w' = decodeWord w := by
  have hform : formOf w ≠ .reserved := fun hr => by
    rw [← form_decodeWord, ← valid_eq_false_iff, hvalid] at hr
    cases hr
  rw [decodeWord_of_form (formOf_eq_of_and_not_ignored h), ← build_and_not_ignored hform, ← h,
    build_and_not_ignored hform, decodeWord]

end

/-- The encoder writes the ignored bits as 0: they lie outside the pattern and every field of the form. -/
theorem encode_and_ignored {i : Instr} (hi : i.valid = true) : encode i &&& (rowOf i.form).ignored = 0 := by
  cases i with
  | reserved low => cases hi
  | _ =>
    simp (disch := decide) only [encode, Instr.form, or_and_mask, field_and_mask, Laws.putReg_and_mask]
    rfl

/-- Settles O8: decoder and encoder by the row of the form, and the reserved pattern as the one form that is not
valid. -/
theorem ignoredBitsNeverMatter : Obligations.IgnoredBitsNeverMatter := by
  refine ⟨fun w w' row hrow hform hvalid h => ?decode, fun i row hrow hform hvalid => ?encode,
    valid_decodeWord_eq_false_iff⟩
  case decode =>
    rw [eq_rowOf hrow, hform, form_decodeWord] at h
    exact decodeWord_eq_of_and_not_ignored hvalid h
  case encode =>
    rw [eq_rowOf hrow, hform]
    exact encode_and_ignored hvalid

/-! ## Immediates (R95) -/

theorem toNat_zext16_slice (lo n : Nat) (w : Word) (hn : n ≤ 16) :
    (zext16 (slice lo n w)).toNat = w.toNat / 2 ^ lo % 2 ^ n := by
  rw [zext16, BitVec.toNat_setWidth_of_le hn, slice, BitVec.extractLsb'_toNat, Nat.shiftRight_eq_div_pow]

theorem toNat_zext16_slice_zero (n : Nat) (w : Word) (hn : n ≤ 16) :
    (zext16 (slice 0 n w)).toNat = w.toNat % 2 ^ n := by
  rw [toNat_zext16_slice 0 n w hn, Nat.pow_zero, Nat.div_one]

/-- Settles O9, form by form, grouped by the immediate field R92 gives the form. -/
theorem immediatesAreZeroExtended : Obligations.ImmediatesAreZeroExtended := by
  intro w
  have himm : (decodeRecord w).imm16 = ((formOf w).build (Fields.ofWord w)).roles.2.2.2 := rfl
  rw [himm]
  cases formOf w with
  | b => exact toNat_zext16_slice_zero 12 w (by decide)
  | beq | bne | bgt | blt => exact toNat_zext16_slice_zero 11 w (by decide)
  | jmp => exact toNat_zext16_slice_zero 9 w (by decide)
  | movi | cmpi => exact toNat_zext16_slice_zero 8 w (by decide)
  | ldi => exact toNat_zext16_slice_zero 7 w (by decide)
  | ldd | std => exact toNat_zext16_slice_zero 4 w (by decide)
  | andi | ori | addi | subi => exact toNat_zext16_slice 1 7 w (by decide)
  | and3i | or3i | add3i | sub3i => exact toNat_zext16_slice 1 4 w (by decide)
  | ld | ldx | st | stx | reserved | mov | cmp | and | and3 | or | or3 | not => rfl
  | add | add3 | sub | sub3 | push | pop | hlt => rfl

end Sys2Proof

namespace Sys2Proof.Machine

/-! ## The DecodeError of the reserved store mode (R157, R200, R204) -/

/-- The fault's entry writes STATUS, the FSM state and the record, and nothing else, whichever error is raised. -/
theorem faultEffect_raised (s : State) (e : CoreError) : FaultEffect e.status e.cause e.info s (s.raised e) where
  status := rfl
  fsm := rfl
  record := rfl
  pc := rfl
  regs _ := rfl
  sp := rfl
  lr := rfl
  flags := rfl
  run := rfl
  ir := rfl
  steps := rfl
  memory _ := rfl
  romLen := rfl
  params := rfl

theorem exec_reserved (low : BitVec 10) (s : State) :
    exec (.reserved low) s = .next (s.raised (.decode (encode (.reserved low)))) :=
  exec_eq_run (.reserved low) s

/-- A step from FETCH with budget left runs the fetched word (R241, R247). -/
theorem step_of_lt_budget {s : State} (hfsm : s.fsm = .fetch) (hbudget : s.steps < s.params.stepBudget) :
    step s = (endCycle (exec (decodeWord s.fetchWord) s.fetched)).1 := by
  simp [step, cycle, hfsm, Nat.not_le.2 hbudget]

theorem endCycle_raised (s : State) (e : CoreError) : endCycle (.next (s.raised e)) = (.next (s.raised e), none) :=
  rfl

/-- The record names the whole fetched word, since the reserved encoding keeps the bits its word had. -/
theorem step_reserved {s : State} (hfsm : s.fsm = .fetch) (hbudget : s.steps < s.params.stepBudget)
    (hword : s.fetchWord &&& 0xFC00#16 = 0x4C00#16) : step s = .next (s.fetched.raised (.decode s.fetchWord)) := by
  rw [step_of_lt_budget hfsm hbudget, decodeWord_of_reserved hword, exec_reserved, encode_reserved_slice hword,
    endCycle_raised]

/-- Settles O24: the reserved pattern, its decoding, and the error it raises at `exec` and at `step`. -/
theorem reservedStoreModeRaisesDecodeError : Obligations.ReservedStoreModeRaisesDecodeError := by
  refine ⟨valid_decodeWord_eq_false_iff, decodeWord_encode_reserved, fun s low => ?exec,
    fun s hfsm hbudget hword => ?step⟩
  case exec => exact ⟨_, exec_reserved low s, faultEffect_raised s (.decode (encode (.reserved low)))⟩
  case step => exact ⟨_, step_reserved hfsm hbudget hword, faultEffect_raised s.fetched (.decode s.fetchWord)⟩

end Sys2Proof.Machine


namespace Sys2Proof

/-! ## Decoding a branch word (R140 to R144) -/

theorem formOf_encode_of_matchesRow {i : Instr} (h : Laws.EncodingMatchesRow.Statement i) :
    formOf (encode i) = i.form := by
  obtain ⟨r, hr, hform, hselects⟩ := h
  exact ((selects_iff_form_eq hr _).1 hselects).symm.trans hform

/-- Decoding inverts an encoding that its row selects, once the form's fields give the operands back. -/
theorem decodeWord_encode_of_matchesRow {i : Instr} (h : Laws.EncodingMatchesRow.Statement i)
    (hbuild : i.form.build (Fields.ofWord (encode i)) = i) : decodeWord (encode i) = i := by
  rw [decodeWord_of_form (formOf_encode_of_matchesRow h), hbuild]

/-- A low field put on a word that is clear there is read back. -/
theorem slice_or_field_low {n : Nat} {base : Word} (v : BitVec n) (hbase : slice 0 n base = 0#n) (hn : n ≤ 16) :
    slice 0 n (base ||| field 0 v) = v := by
  rw [slice_or, hbase, slice_field_same v (by omega), BitVec.zero_or]

theorem decodeWord_encode_b (imm : BitVec 12) : decodeWord (encode (.b imm)) = .b imm :=
  decodeWord_encode_of_matchesRow (Laws.EncodingMatchesRow.b imm)
    (congrArg Instr.b (slice_or_field_low imm rfl (by decide)))

theorem decodeWord_encode_beq (imm : BitVec 11) : decodeWord (encode (.beq imm)) = .beq imm :=
  decodeWord_encode_of_matchesRow (Laws.EncodingMatchesRow.beq imm)
    (congrArg Instr.beq (slice_or_field_low imm rfl (by decide)))

theorem decodeWord_encode_bne (imm : BitVec 11) : decodeWord (encode (.bne imm)) = .bne imm :=
  decodeWord_encode_of_matchesRow (Laws.EncodingMatchesRow.bne imm)
    (congrArg Instr.bne (slice_or_field_low imm rfl (by decide)))

theorem decodeWord_encode_bgt (imm : BitVec 11) : decodeWord (encode (.bgt imm)) = .bgt imm :=
  decodeWord_encode_of_matchesRow (Laws.EncodingMatchesRow.bgt imm)
    (congrArg Instr.bgt (slice_or_field_low imm rfl (by decide)))

theorem decodeWord_encode_blt (imm : BitVec 11) : decodeWord (encode (.blt imm)) = .blt imm :=
  decodeWord_encode_of_matchesRow (Laws.EncodingMatchesRow.blt imm)
    (congrArg Instr.blt (slice_or_field_low imm rfl (by decide)))

end Sys2Proof

namespace Sys2Proof.Machine

/-! ## The effect of a branch (R28, R140 to R144) -/

/-- Writing PC through the sequencer changes nothing else, whichever source it takes. -/
theorem jumpEffect_sequence (s : State) (src : PcSource) :
    JumpEffect (src.next s.pc) s.run s (s.sequence src) where
  pc := rfl
  run := rfl
  regs _ := rfl
  flags := rfl
  sp := rfl
  memory _ := rfl
  bookkeep := ⟨rfl, rfl, rfl, rfl, rfl, rfl, rfl, rfl⟩

/-- A form whose shape is a jump to a source completes with that source's next PC. -/
theorem exec_goto_effect {i : Instr} {s : State} {src : PcSource} (hshape : shapeOf s i = .goto src) :
    ∃ t, exec i s = .next t ∧ JumpEffect (src.next s.pc) s.run s t :=
  ⟨s.sequence src, by rw [exec_eq_run, hshape, Shape.run], jumpEffect_sequence s src⟩

/-- The next PC of a conditional branch, under the condition its test decides. -/
theorem branchSource_next {taken : Bool} {cond : Prop} [Decidable cond] (h : taken = true ↔ cond)
    (target : BitVec 11) (pc : Word) :
    (branchSource taken target).next pc = if cond then target.setWidth 16 else pc + 1 := by
  by_cases hc : cond
  · rw [h.2 hc, if_pos hc]
    rfl
  · rw [Bool.eq_false_of_not_eq_true (mt h.1 hc), if_neg hc]
    rfl

/-- A form whose shape is a conditional branch goes to its immediate or to PC + 1, by its condition. -/
theorem exec_branch_effect {i : Instr} {s : State} {taken : Bool} {imm : BitVec 11} {cond : Prop} [Decidable cond]
    (hshape : shapeOf s i = .goto (branchSource taken imm)) (h : taken = true ↔ cond) :
    ∃ t, exec i s = .next t ∧ JumpEffect (if cond then imm.setWidth 16 else s.pc + 1) s.run s t :=
  branchSource_next h imm s.pc ▸ exec_goto_effect hshape

/-- A zero-extended 12-bit target lies in the first 4096 words. -/
theorem toNat_zext_imm12_lt (imm : BitVec 12) : (imm.setWidth 16).toNat < 0x1000 := by
  rw [BitVec.toNat_setWidth_of_le (by decide)]
  exact imm.isLt

/-- Settles O17: the four forms have one shape, a conditional branch, and differ in the test of FLAGS. -/
theorem conditionalBranchesTestFlags : Obligations.ConditionalBranchesTestFlags := by
  refine ⟨fun imm => ⟨decodeWord_encode_beq imm, decodeWord_encode_bne imm, decodeWord_encode_bgt imm,
    decodeWord_encode_blt imm⟩, fun s imm => ⟨?beq, ?bne, ?bgt, ?blt⟩⟩
  case beq => exact exec_branch_effect rfl beq_iff_eq
  case bne => exact exec_branch_effect rfl bne_iff_ne
  case bgt => exact exec_branch_effect rfl beq_iff_eq
  case blt => exact exec_branch_effect rfl beq_iff_eq

/-- Settles O16: B is a jump to its 12-bit source, whose zero-extension bounds the PC it leaves. -/
theorem branchGoesToItsImmediate : Obligations.BranchGoesToItsImmediate := by
  refine ⟨decodeWord_encode_b, decodeWord_encode_b 0, fun s imm => ?_⟩
  obtain ⟨t, ht, heffect⟩ := exec_goto_effect (s := s) (i := .b imm) rfl
  exact ⟨t, ht, heffect, heffect.pc ▸ toNat_zext_imm12_lt imm⟩

end Sys2Proof.Machine


namespace Sys2Proof

/-! ## Decoding a load or store word (R101, R107, R150 to R156)

An encoding decodes to its instruction, and bits put into the ignored places of its row do not change what it decodes
to. -/

/-- A register field of the statements is the encoder's. -/
theorem putReg_toFin (lo : Nat) (v : BitVec 3) : putReg lo v.toFin = field lo v := rfl

/-- The fields of an encoding give the operands of its form back: no two of its fields overlap. -/
theorem build_encode (i : Instr) : i.form.build (Fields.ofWord (encode i)) = i := by
  cases i with
  | reserved low =>
    rw [Instr.form, Form.build, Fields.ofWord, slice_setWidth 0 _ (by decide), encode,
      slice_or_field_low low rfl (by decide)]
  | hlt => rfl
  | _ =>
    simp (disch := decide) [Instr.form, Form.build, Fields.ofWord, encode, regField, putReg, slice_or,
      slice_field_same, slice_field_disjoint]

theorem decodeWord_encode_of_selected {i : Instr} (h : Laws.EncodingMatchesRow.Statement i) :
    decodeWord (encode i) = i :=
  decodeWord_encode_of_matchesRow h (build_encode i)

/-- Setting ignored bits of a form that is not the reserved one leaves the decoded instruction as it is. -/
theorem decodeWord_or_of_ignored {w v : Word} (hvalid : (decodeWord w).valid = true)
    (hv : v &&& ~~~ (rowOf (formOf w)).ignored = 0) : decodeWord (w ||| v) = decodeWord w :=
  decodeWord_eq_of_and_not_ignored hvalid (by rw [or_and_mask, hv]; exact BitVec.or_zero.symm)

/-- A field put into the ignored bits of the row of form `f` (R101). -/
theorem decodeWord_encode_or_field {i : Instr} (h : Laws.EncodingMatchesRow.Statement i) (hvalid : i.valid = true)
    {f : Form} (hf : i.form = f) {n lo : Nat} (x : BitVec n)
    (hx : ∀ j < n, (~~~ (rowOf f).ignored).getLsbD (lo + j) = false) : decodeWord (encode i ||| field lo x) = i := by
  have hi := decodeWord_encode_of_selected h
  have hform : formOf (encode i) = f := (formOf_encode_of_matchesRow h).trans hf
  have hignored : field lo x &&& ~~~ (rowOf (formOf (encode i))).ignored = 0 := by
    rw [hform, field_and_mask x _ hx]
  rw [decodeWord_or_of_ignored (hi.symm ▸ hvalid) hignored, hi]

/-- A zero-extended immediate keeps its value (R95). -/
theorem toNat_zext16 {n : Nat} (v : BitVec n) (hn : n ≤ 16) : (zext16 v).toNat = v.toNat :=
  BitVec.toNat_setWidth_of_le hn

end Sys2Proof

namespace Sys2Proof.Machine

/-! ## The effect of a load (R150 to R153) -/

/-- Writing a register and SP and advancing PC changes nothing else. -/
theorem loadEffect_setReg (s : State) (d : Reg) (v sp' : Word) :
    LoadEffect d v sp' s (((s.setReg d v).setSp sp').sequence .inc) where
  dest := reg_setReg_self s d v
  regs _ hq := reg_setReg_of_ne s v hq
  flags := rfl
  pc := rfl
  sp := rfl
  run := rfl
  memory _ := rfl
  bookkeep := ⟨rfl, rfl, rfl, rfl, rfl, rfl, rfl, rfl⟩

section
variable {i : Instr} {s : State} {a : Nat} {addr : Except CoreError Nat} {e : CoreError}

/-- LDI leaves SP at its value, and so do LD, LDX and LDD below. -/
theorem exec_put_effect {d : Reg} {v : Word} (hshape : shapeOf s i = .put d v) :
    ∃ t, exec i s = .next t ∧ LoadEffect d v s.sp s t :=
  ⟨(s.setReg d v).sequence .inc, by rw [exec_eq_run, hshape, Shape.run], loadEffect_setReg s d v s.sp⟩

theorem exec_load_effect {d : Reg} (hshape : shapeOf s i = .load d addr) (haddr : addr = .ok a)
    (ha : a < Config.memWords) : ∃ t, exec i s = .next t ∧ LoadEffect d (s.word a) s.sp s t := by
  rw [exec_eq_run, hshape, haddr]
  exact ⟨_, loadFrom_ok s d ha, loadEffect_setReg s d (s.word a) s.sp⟩

theorem exec_store_effect {v : Word} (hshape : shapeOf s i = .store v addr) (haddr : addr = .ok a)
    (ha : a < Config.memWords) : ∃ t, exec i s = .next t ∧ StoreEffect a v s.sp s t := by
  rw [exec_eq_run, hshape, haddr]
  exact storeTo_effect s v ha

/-! An address operand that raises an error. -/

theorem exec_load_error {d : Reg} (hshape : shapeOf s i = .load d addr) (haddr : addr = .error e) :
    exec i s = .next (s.raised e) := by
  rw [exec_eq_run, hshape, haddr]
  rfl

theorem exec_store_error {v : Word} (hshape : shapeOf s i = .store v addr) (haddr : addr = .error e) :
    exec i s = .next (s.raised e) := by
  rw [exec_eq_run, hshape, haddr]
  rfl

end

/-! ## Base and offset (R64, R151, R152, R155, R156) -/

/-- Wherever no AddressError is raised, the effective address is the 16-bit sum. -/
theorem effectiveAddress_eq_ok {mode : Config.EaOverflow} {base off : Word}
    (h : base.toNat + off.toNat ≤ 0xFFFF ∨ mode = .wrap) :
    effectiveAddress mode base off = .ok (base + off).toNat := by
  rcases h with hsum | rfl
  · rw [effectiveAddress_of_le hsum, BitVec.toNat_add, Nat.mod_eq_of_lt (by omega)]
  · exact effectiveAddress_wrap base off

theorem effectiveAddress_eq_error {mode : Config.EaOverflow} {base off : Word}
    (hsum : 0xFFFF < base.toNat + off.toNat) (hmode : mode = .fault) :
    effectiveAddress mode base off = .error (.address (base.toNat + off.toNat)) := by
  rw [hmode, effectiveAddress_fault hsum]

section
variable {i : Instr} {s : State} {base off : Word}

/-- LDX and LDD: the word at base + offset is loaded, or the AddressError with the exact sum is raised. -/
theorem exec_load_baseOffset {d : Reg}
    (hshape : shapeOf s i = .load d (effectiveAddress s.params.eaOverflow base off)) :
    (base.toNat + off.toNat ≤ 0xFFFF ∨ s.params.eaOverflow = .wrap →
      ∃ t, exec i s = .next t ∧ LoadEffect d (s.word (base + off).toNat) s.sp s t) ∧
    (0xFFFF < base.toNat + off.toNat → s.params.eaOverflow = .fault →
      ∃ t, exec i s = .next t ∧
        FaultEffect .addressError none (.address (base.toNat + off.toNat)) s t) := by
  refine ⟨fun h => ?loads, fun hsum hmode => ?raises⟩
  case loads => exact exec_load_effect hshape (effectiveAddress_eq_ok h) (toNat_lt_memWords _)
  case raises =>
    exact ⟨_, exec_load_error hshape (effectiveAddress_eq_error hsum hmode), faultEffect_raised s (.address _)⟩

/-- STX and STD: the word at base + offset is stored, or the AddressError with the exact sum is raised. -/
theorem exec_store_baseOffset {v : Word}
    (hshape : shapeOf s i = .store v (effectiveAddress s.params.eaOverflow base off)) :
    (base.toNat + off.toNat ≤ 0xFFFF ∨ s.params.eaOverflow = .wrap →
      ∃ a t, effectiveAddress s.params.eaOverflow base off = .ok a ∧ a = (base + off).toNat ∧
        exec i s = .next t ∧ StoreEffect a v s.sp s t) ∧
    (0xFFFF < base.toNat + off.toNat → s.params.eaOverflow = .fault →
      ∃ t, exec i s = .next t ∧
        FaultEffect .addressError none (.address (base.toNat + off.toNat)) s t) := by
  refine ⟨fun h => ?stores, fun hsum hmode => ?raises⟩
  case stores =>
    have haddr := effectiveAddress_eq_ok h
    obtain ⟨t, ht, heffect⟩ := exec_store_effect hshape haddr (toNat_lt_memWords _)
    exact ⟨_, t, haddr, rfl, ht, heffect⟩
  case raises =>
    exact ⟨_, exec_store_error hshape (effectiveAddress_eq_error hsum hmode), faultEffect_raised s (.address _)⟩

end

/-! ## The load and store forms (R150 to R156) -/

/-- Settles O20: both forms load from base + offset, and differ in where the offset comes from. -/
theorem loadIndexedAndOffset : Obligations.LoadIndexedAndOffset := by
  refine ⟨fun d s t x => ?ldxWord, fun d s imm => ?lddWord, fun s d r q => ?ldx, fun s d r imm => ?ldd⟩
  case ldxWord =>
    simpa only [encode, putReg_toFin] using decodeWord_encode_or_field
      (Laws.EncodingMatchesRow.ldx d.toFin s.toFin t.toFin) rfl (f := .ldx) rfl x (by decide)
  case lddWord =>
    simpa only [encode, putReg_toFin] using
      decodeWord_encode_of_selected (Laws.EncodingMatchesRow.ldd d.toFin s.toFin imm)
  case ldx => exact exec_load_baseOffset rfl
  case ldd =>
    rw [← toNat_zext16 imm (by decide)]
    exact exec_load_baseOffset rfl

/-- Settles O23: both forms store at base + offset, and differ in where the offset comes from. -/
theorem storeIndexedAndOffset : Obligations.StoreIndexedAndOffset := by
  refine ⟨fun s d t x => ?stxWord, fun s d imm => ?stdWord, fun s r d q => ?stx, fun s r d imm => ?std⟩
  case stxWord =>
    simpa only [encode, putReg_toFin] using decodeWord_encode_or_field
      (Laws.EncodingMatchesRow.stx s.toFin d.toFin t.toFin) rfl (f := .stx) rfl x (by decide)
  case stdWord =>
    simpa only [encode, putReg_toFin] using
      decodeWord_encode_of_selected (Laws.EncodingMatchesRow.std s.toFin d.toFin imm)
  case stx => exact exec_store_baseOffset rfl
  case std =>
    rw [← toNat_zext16 imm (by decide)]
    exact exec_store_baseOffset rfl

/-- Settles O19: the address is the register's own value, so the load completes in every state. -/
theorem loadIndirect : Obligations.LoadIndirect := by
  refine ⟨fun d s x => ?word, fun s d r => ?exec⟩
  case word =>
    simpa only [encode, putReg_toFin] using decodeWord_encode_or_field
      (Laws.EncodingMatchesRow.ld d.toFin s.toFin) rfl (f := .ld) rfl x (by decide)
  case exec => exact exec_load_effect rfl rfl (toNat_lt_memWords _)

/-- Settles O21: LDI writes its zero-extended immediate, which has seven bits, and makes no transaction. -/
theorem loadImmediateKeepsFlags : Obligations.LoadImmediateKeepsFlags := by
  refine ⟨fun d imm => ?word, fun s d imm => ⟨rfl, ?exec⟩⟩
  case word =>
    simpa only [encode, putReg_toFin] using
      decodeWord_encode_of_selected (Laws.EncodingMatchesRow.ldi d.toFin imm)
  case exec =>
    obtain ⟨t, ht, heffect⟩ := exec_put_effect (s := s) (i := .ldi d imm) rfl
    refine ⟨t, ht, heffect, ?_⟩
    rw [heffect.dest, toNat_zext16 imm (by decide)]
    exact Nat.le_of_lt_succ imm.isLt

/-- Settles O22: the address is the register's own value, so the store completes in every state. -/
theorem storeIndirect : Obligations.StoreIndirect := by
  refine ⟨fun s d x => ?word, fun s r d => ?exec⟩
  case word =>
    simpa only [encode, putReg_toFin] using decodeWord_encode_or_field
      (Laws.EncodingMatchesRow.st s.toFin d.toFin) rfl (f := .st) rfl x (by decide)
  case exec => exact exec_store_effect rfl rfl (toNat_lt_memWords _)

end Sys2Proof.Machine


namespace Sys2Proof.Machine

/-! ## The effect of a flag-producing form, and the moves (R32, R33, R160, R161) -/

/-- Writing a register, deriving FLAGS and advancing PC changes nothing else. -/
theorem resultEffect_flagged (s : State) (d : Reg) (r : Word) :
    ResultEffect d r s (((s.setReg d r).flagged r).sequence .inc) where
  dest := reg_setReg_self s d r
  regs _ hq := reg_setReg_of_ne s r hq
  flags := rfl
  pc := rfl
  sp := rfl
  run := rfl
  memory _ := rfl
  bookkeep := ⟨rfl, rfl, rfl, rfl, rfl, rfl, rfl, rfl⟩

/-- A form whose shape is a result written to a register completes in every state. -/
theorem exec_result_effect {i : Instr} {s : State} {d : Reg} {r : Word} (hshape : shapeOf s i = .result d r) :
    ∃ t, exec i s = .next t ∧ ResultEffect d r s t :=
  ⟨((s.setReg d r).flagged r).sequence .inc, by rw [exec_eq_run, hshape, Shape.run, writeResult],
    resultEffect_flagged s d r⟩

/-- FLAGS is never N for a result whose sign bit is clear, in either mode (R33). -/
theorem flagsOf_of_msb_eq_false (mode : Config.FlagMode) {r : Word} (hr : r.msb = false) :
    flagsOf mode r = if r = 0 then .z else .p := by
  rcases flagsOf_cases mode r with ⟨hz, hf⟩ | ⟨-, -, hn, -⟩ | ⟨hz, -, hf⟩
  · rw [hf, if_pos hz]
  · exact absurd (hr.symm.trans hn) Bool.false_ne_true
  · rw [hf, if_neg hz]

/-- An immediate narrower than a word has a clear sign bit once zero-extended (R95). -/
theorem msb_zext16 {n : Nat} (v : BitVec n) (hn : n < 16) : (zext16 v).msb = false := by
  rw [zext16, BitVec.msb_setWidth]
  simp [BitVec.getLsbD_of_ge v 15 (by omega)]

theorem zext16_eq_zero_iff {n : Nat} (v : BitVec n) (hn : n ≤ 16) : zext16 v = 0 ↔ v = 0 := by
  rw [← BitVec.toNat_inj, ← BitVec.toNat_inj, toNat_zext16 v hn]
  simp

/-- FLAGS of a zero-extended immediate: Z for 0, P otherwise (R161). -/
theorem flagsOf_zext16 (mode : Config.FlagMode) {n : Nat} (v : BitVec n) (hn : n < 16) :
    flagsOf mode (zext16 v) = if v = 0 then .z else .p := by
  simp only [flagsOf_of_msb_eq_false mode (msb_zext16 v hn), zext16_eq_zero_iff v hn.le]

/-- Settles O25: both forms write a result, and MOVI's is a zero-extended immediate, whose sign bit is clear. -/
theorem movesWriteRegisterAndFlags : Obligations.MovesWriteRegisterAndFlags := by
  refine ⟨fun d s x => ?movWord, fun d imm => ?moviWord, fun s d r => ?mov, fun s d imm => ?movi⟩
  case movWord =>
    simpa only [encode, putReg_toFin] using decodeWord_encode_or_field
      (Laws.EncodingMatchesRow.mov d.toFin s.toFin) rfl (f := .mov) rfl x (by decide)
  case moviWord =>
    simpa only [encode, putReg_toFin] using
      decodeWord_encode_of_selected (Laws.EncodingMatchesRow.movi d.toFin imm)
  case mov => exact exec_result_effect rfl
  case movi =>
    obtain ⟨t, ht, heffect⟩ := exec_result_effect (s := s) (i := .movi d imm) rfl
    exact ⟨t, ht, heffect, heffect.flags.trans (flagsOf_zext16 s.params.flagMode imm (by decide))⟩

end Sys2Proof.Machine


namespace Sys2Proof

/-! ## Decoding a logic word (R101, R162 to R170)

The forms of AND and OR leave one field of ignored bits or none; NOT leaves one on each side of its register field. -/

/-- Two fields put into the ignored bits of the row of form `f` (R101). -/
theorem decodeWord_encode_or_fields {i : Instr} (h : Laws.EncodingMatchesRow.Statement i) (hvalid : i.valid = true)
    {f : Form} (hf : i.form = f) {n m lo lo' : Nat} (x : BitVec n) (y : BitVec m)
    (hx : ∀ j < n, (~~~ (rowOf f).ignored).getLsbD (lo + j) = false)
    (hy : ∀ j < m, (~~~ (rowOf f).ignored).getLsbD (lo' + j) = false) :
    decodeWord (encode i ||| (field lo x ||| field lo' y)) = i := by
  have hi := decodeWord_encode_of_selected h
  have hform : formOf (encode i) = f := (formOf_encode_of_matchesRow h).trans hf
  have hignored : (field lo x ||| field lo' y) &&& ~~~ (rowOf (formOf (encode i))).ignored = 0 := by
    rw [hform, or_and_mask, field_and_mask x _ hx, field_and_mask y _ hy]
    rfl
  rw [decodeWord_or_of_ignored (hi.symm ▸ hvalid) hignored, hi]

/-! ## Words combined with a zero-extended immediate (R95, R163, R165, R167) -/

/-- A zero-extended immediate has no bit at or above its width. -/
theorem zext16_ushiftRight {n : Nat} (v : BitVec n) (hn : n ≤ 16) : zext16 v >>> n = 0 := by
  apply BitVec.eq_of_toNat_eq
  rw [BitVec.toNat_ushiftRight, toNat_zext16 v hn, Nat.shiftRight_eq_div_pow, Nat.div_eq_of_lt v.isLt]
  rfl

/-- The bits at and above the immediate's width pass through a disjunction with it. -/
theorem or_zext16_ushiftRight (a : Word) {n : Nat} (v : BitVec n) (hn : n ≤ 16) :
    (a ||| zext16 v) >>> n = a >>> n := by
  rw [BitVec.ushiftRight_or_distrib, zext16_ushiftRight v hn]
  exact BitVec.or_zero

/-- A conjunction with an immediate keeps no bit at or above the immediate's width. -/
theorem toNat_and_zext16_lt (a : Word) {n : Nat} (v : BitVec n) (hn : n ≤ 16) : (a &&& zext16 v).toNat < 2 ^ n := by
  rw [BitVec.toNat_and, toNat_zext16 v hn]
  exact Nat.and_le_right.trans_lt v.isLt

end Sys2Proof

namespace Sys2Proof.Machine

/-! ## The logic forms (R162 to R170) -/

/-- A conjunction with an immediate has the immediate's clear sign bit. -/
theorem msb_and_zext16 (a : Word) {n : Nat} (v : BitVec n) (hn : n < 16) : (a &&& zext16 v).msb = false := by
  rw [BitVec.msb_and, msb_zext16 v hn, Bool.and_false]

theorem flagsOf_ne_n_of_msb_eq_false (mode : Config.FlagMode) {r : Word} (hr : r.msb = false) :
    flagsOf mode r ≠ .n := by
  rw [Ne, flagsOf_eq_n_iff, ← msb_iff_toInt_neg, hr]
  exact fun h => Bool.false_ne_true h.2

/-- ANDI and AND3I: the conjunction with an `n`-bit immediate is an `n`-bit value, and never negative. -/
theorem exec_and_imm_effect {i : Instr} {s : State} {d : Reg} {a : Word} {n : Nat} {imm : BitVec n} (hn : n < 16)
    (hshape : shapeOf s i = .result d (a &&& zext16 imm)) :
    ∃ t, exec i s = .next t ∧ ResultEffect d (a &&& zext16 imm) s t ∧ t.flags ≠ .n ∧ (t.reg d).toNat ≤ 2 ^ n - 1 := by
  obtain ⟨t, ht, heffect⟩ := exec_result_effect hshape
  refine ⟨t, ht, heffect, ?flags, ?bits⟩
  case flags => exact heffect.flags ▸ flagsOf_ne_n_of_msb_eq_false _ (msb_and_zext16 a imm hn)
  case bits => exact heffect.dest ▸ Nat.le_sub_one_of_lt (toNat_and_zext16_lt a imm hn.le)

/-- Settles O26: every form writes the conjunction of its operands, and an immediate operand bounds it. -/
theorem andWritesConjunction : Obligations.AndWritesConjunction := by
  refine ⟨fun d s x => ?andWord, fun d imm => ?andiWord, fun d s t x => ?and3Word, fun d s imm => ?and3iWord,
    fun s d r => ?and, fun s d imm => ?andi, fun s d r q => ?and3, fun s d r imm => ?and3i⟩
  case andWord =>
    simpa only [encode, putReg_toFin] using decodeWord_encode_or_field
      (Laws.EncodingMatchesRow.and d.toFin s.toFin) rfl (f := .and) rfl x (by decide)
  case andiWord =>
    simpa only [encode, putReg_toFin] using
      decodeWord_encode_of_selected (Laws.EncodingMatchesRow.andi d.toFin imm)
  case and3Word =>
    simpa only [encode, putReg_toFin] using decodeWord_encode_or_field
      (Laws.EncodingMatchesRow.and3 d.toFin s.toFin t.toFin) rfl (f := .and3) rfl x (by decide)
  case and3iWord =>
    simpa only [encode, putReg_toFin] using
      decodeWord_encode_of_selected (Laws.EncodingMatchesRow.and3i d.toFin s.toFin imm)
  case and => exact exec_result_effect rfl
  case andi => exact exec_and_imm_effect (by decide) rfl
  case and3 => exact exec_result_effect rfl
  case and3i => exact exec_and_imm_effect (by decide) rfl

/-- Settles O27: every form writes the disjunction of its operands, and ORI's immediate has only its low seven bits. -/
theorem orWritesDisjunction : Obligations.OrWritesDisjunction := by
  refine ⟨fun d s x => ?orWord, fun d imm => ?oriWord, fun d s t x => ?or3Word, fun d s imm => ?or3iWord,
    fun s d r => ?or, fun s d imm => ?ori, fun s d r q => ?or3, fun s d r imm => ?or3i⟩
  case orWord =>
    simpa only [encode, putReg_toFin] using decodeWord_encode_or_field
      (Laws.EncodingMatchesRow.or d.toFin s.toFin) rfl (f := .or) rfl x (by decide)
  case oriWord =>
    simpa only [encode, putReg_toFin] using
      decodeWord_encode_of_selected (Laws.EncodingMatchesRow.ori d.toFin imm)
  case or3Word =>
    simpa only [encode, putReg_toFin] using decodeWord_encode_or_field
      (Laws.EncodingMatchesRow.or3 d.toFin s.toFin t.toFin) rfl (f := .or3) rfl x (by decide)
  case or3iWord =>
    simpa only [encode, putReg_toFin] using
      decodeWord_encode_of_selected (Laws.EncodingMatchesRow.or3i d.toFin s.toFin imm)
  case or => exact exec_result_effect rfl
  case ori =>
    obtain ⟨t, ht, heffect⟩ := exec_result_effect (s := s) (i := .ori d imm) rfl
    exact ⟨t, ht, heffect, heffect.dest ▸ or_zext16_ushiftRight (s.reg d) imm (by decide)⟩
  case or3 => exact exec_result_effect rfl
  case or3i => exact exec_result_effect rfl

/-- Settles O28: the complement is the distance to 0xFFFF, and so is 0 exactly for 0xFFFF. -/
theorem notComplements : Obligations.NotComplements := by
  refine ⟨fun x d y => ?word, fun s d => ?exec⟩
  case word =>
    have hword : 0x8000#16 ||| field 11 x ||| field 8 d ||| field 0 y
        = encode (.not d.toFin) ||| (field 11 x ||| field 0 y) := by
      rw [encode, putReg_toFin]
      ac_rfl
    rw [hword]
    exact decodeWord_encode_or_fields (Laws.EncodingMatchesRow.not d.toFin) rfl (f := .not) rfl x y (by decide)
      (by decide)
  case exec =>
    obtain ⟨t, ht, heffect⟩ := exec_result_effect (s := s) (i := .not d) rfl
    refine ⟨t, ht, heffect, ?value, ?zero⟩
    case value => exact heffect.dest ▸ BitVec.toNat_not
    case zero =>
      rw [heffect.flags, flagsOf_eq_z_iff]
      exact BitVec.not_eq_comm

end Sys2Proof.Machine


namespace Sys2Proof.Machine

/-! ## The arithmetic forms (R171 to R180) -/

/-- Deriving FLAGS and advancing PC changes nothing else. -/
theorem compareEffect_flagged (s : State) (r : Word) : CompareEffect r s ((s.flagged r).sequence .inc) where
  regs _ := rfl
  flags := rfl
  pc := rfl
  sp := rfl
  run := rfl
  memory _ := rfl
  bookkeep := ⟨rfl, rfl, rfl, rfl, rfl, rfl, rfl, rfl⟩

/-- A form whose shape is a comparison completes in every state. -/
theorem exec_compare_effect {i : Instr} {s : State} {r : Word} (hshape : shapeOf s i = .compare r) :
    ∃ t, exec i s = .next t ∧ CompareEffect r s t :=
  ⟨(s.flagged r).sequence .inc, by rw [exec_eq_run, hshape, Shape.run, compareResult], compareEffect_flagged s r⟩

/-- FLAGS of a wrapped difference is Z exactly for equal operands (R179). -/
theorem flagsOf_sub_eq_z_iff (mode : Config.FlagMode) (a b : Word) : flagsOf mode (a - b) = .z ↔ a = b :=
  (flagsOf_eq_z_iff mode (a - b)).trans sub_eq_zero

/-- The literal derivation has no N (R33). -/
theorem flagsOf_sourceLiteral_ne_n (r : Word) : flagsOf .sourceLiteral r ≠ .n := by
  rw [Ne, flagsOf_eq_n_iff]
  exact fun h => Config.FlagMode.noConfusion h.1

/-- Settles O29: every form writes the 16-bit sum of its operands. -/
theorem addWritesSum : Obligations.AddWritesSum := by
  refine ⟨fun d s x => ?addWord, fun d imm => ?addiWord, fun d s t x => ?add3Word, fun d s imm => ?add3iWord,
    fun s d r => ?add, fun s d imm => ?addi, fun s d r q => ?add3, fun s d r imm => ?add3i⟩
  case addWord =>
    simpa only [encode, putReg_toFin] using decodeWord_encode_or_field
      (Laws.EncodingMatchesRow.add d.toFin s.toFin) rfl (f := .add) rfl x (by decide)
  case addiWord =>
    simpa only [encode, putReg_toFin] using
      decodeWord_encode_of_selected (Laws.EncodingMatchesRow.addi d.toFin imm)
  case add3Word =>
    simpa only [encode, putReg_toFin] using decodeWord_encode_or_field
      (Laws.EncodingMatchesRow.add3 d.toFin s.toFin t.toFin) rfl (f := .add3) rfl x (by decide)
  case add3iWord =>
    simpa only [encode, putReg_toFin] using
      decodeWord_encode_of_selected (Laws.EncodingMatchesRow.add3i d.toFin s.toFin imm)
  all_goals exact exec_result_effect rfl

/-- Settles O30: every form writes the 16-bit difference of its operands, the first minus the second. -/
theorem subWritesDifference : Obligations.SubWritesDifference := by
  refine ⟨fun d s x => ?subWord, fun d imm => ?subiWord, fun d s t x => ?sub3Word, fun d s imm => ?sub3iWord,
    fun s d r => ?sub, fun s d imm => ?subi, fun s d r q => ?sub3, fun s d r imm => ?sub3i⟩
  case subWord =>
    simpa only [encode, putReg_toFin] using decodeWord_encode_or_field
      (Laws.EncodingMatchesRow.sub d.toFin s.toFin) rfl (f := .sub) rfl x (by decide)
  case subiWord =>
    simpa only [encode, putReg_toFin] using
      decodeWord_encode_of_selected (Laws.EncodingMatchesRow.subi d.toFin imm)
  case sub3Word =>
    simpa only [encode, putReg_toFin] using decodeWord_encode_or_field
      (Laws.EncodingMatchesRow.sub3 d.toFin s.toFin t.toFin) rfl (f := .sub3) rfl x (by decide)
  case sub3iWord =>
    simpa only [encode, putReg_toFin] using
      decodeWord_encode_of_selected (Laws.EncodingMatchesRow.sub3i d.toFin s.toFin imm)
  all_goals exact exec_result_effect rfl

/-- Settles O31: both forms derive FLAGS from the wrapped difference, which for CMPI #0 is the register itself. -/
theorem compareWritesFlagsOnly : Obligations.CompareWritesFlagsOnly := by
  refine ⟨fun d s x => ?cmpWord, fun d imm => ?cmpiWord, fun s d r => ?cmp, fun s d imm => ?cmpi⟩
  case cmpWord =>
    simpa only [encode, putReg_toFin] using decodeWord_encode_or_field
      (Laws.EncodingMatchesRow.cmp d.toFin s.toFin) rfl (f := .cmp) rfl x (by decide)
  case cmpiWord =>
    simpa only [encode, putReg_toFin] using
      decodeWord_encode_of_selected (Laws.EncodingMatchesRow.cmpi d.toFin imm)
  case cmp =>
    obtain ⟨t, ht, heffect⟩ := exec_compare_effect (s := s) (i := .cmp d r) rfl
    refine ⟨t, ht, heffect, ?equal, fun hmode => ?literal⟩
    case equal => exact heffect.flags ▸ flagsOf_sub_eq_z_iff s.params.flagMode (s.reg d) (s.reg r)
    case literal =>
      rw [heffect.flags, hmode]
      exact flagsOf_sourceLiteral_ne_n _
  case cmpi =>
    obtain ⟨t, ht, heffect⟩ := exec_compare_effect (s := s) (i := .cmpi d imm) rfl
    refine ⟨t, ht, heffect, fun himm => ?zero⟩
    have hdiff : s.reg d - imm.setWidth 16 = s.reg d := by
      rw [himm]
      exact sub_zero (s.reg d)
    exact heffect.flags.trans (congrArg (flagsOf s.params.flagMode) hdiff)

end Sys2Proof.Machine


namespace Sys2Proof

/-! ## Decoding a stack word (R92, R101, R185, R186) -/

/-- A form that ignores all of the FR layout but its register field decodes whatever bits stand on either side of it. -/
theorem decodeWord_of_fr_ignored {i : Instr} (h : Laws.EncodingMatchesRow.Statement i) (hvalid : i.valid = true)
    {f : Form} (hf : i.form = f) (hignored : (rowOf f).ignored = 0x08FF#16) {base : Word} {r : BitVec 3}
    (hencode : encode i = base ||| field 8 r) (x : BitVec 1) (y : BitVec 8) :
    decodeWord (base ||| field 11 x ||| field 8 r ||| field 0 y) = i := by
  have hword : base ||| field 11 x ||| field 8 r ||| field 0 y = encode i ||| (field 11 x ||| field 0 y) := by
    rw [hencode]
    ac_rfl
  rw [hword]
  exact decodeWord_encode_or_fields h hvalid hf x y (by rw [hignored]; decide) (by rw [hignored]; decide)

end Sys2Proof

namespace Sys2Proof.Machine

/-! ## The bound checks of the stack (R69) -/

section
variable {s : State} {e : CoreError}

theorem addrPush_eq_ok (h : s.params.stackFloor < s.sp) : addrPush s = .ok (s.sp - 1).toNat :=
  if_neg (BitVec.not_le.2 h)

theorem addrPush_eq_error (h : s.sp ≤ s.params.stackFloor) : addrPush s = .error (.stack .overflow s.sp) :=
  if_pos h

theorem addrPop_eq_ok (h : s.sp < Config.stackBase) : addrPop s = .ok s.sp.toNat :=
  if_neg (BitVec.not_le.2 h)

theorem addrPop_eq_error (h : Config.stackBase ≤ s.sp) : addrPop s = .error (.stack .underflow s.sp) :=
  if_pos h

/-! A bound check that fails raises its error before any write. -/

theorem pushWord_of_addrPush_error (v : Word) (h : addrPush s = .error e) : pushWord v s = .next (s.raised e) := by
  simp only [pushWord, h, raise]

theorem popWord_of_addrPop_error (d : Reg) (h : addrPop s = .error e) : popWord d s = .next (s.raised e) := by
  simp only [popWord, h, raise]

end

/-! SP moves by one without wrapping wherever its bound check passes. -/

theorem toNat_sub_one_of_lt {a b : Word} (h : b < a) : (a - 1).toNat = a.toNat - 1 := by
  bv_omega

theorem toNat_add_one_of_lt {a b : Word} (h : a < b) : (a + 1).toNat = a.toNat + 1 := by
  bv_omega

/-! ## PUSH and POP (R185, R186) -/

theorem popWord_effect {s : State} {a : Nat} (d : Reg) (h : addrPop s = .ok a) :
    ∃ t, popWord d s = .next t ∧ LoadEffect d (s.word a) (s.sp + 1) s t :=
  ⟨_, popWord_of_addrPop d h, loadEffect_setReg s d (s.word a) (s.sp + 1)⟩

theorem exec_push_effect {s : State} (r : Reg) (h : s.params.stackFloor < s.sp) :
    ∃ t, exec (.push r) s = .next t ∧ StoreEffect (s.sp - 1).toNat (s.reg r) (s.sp - 1) s t := by
  rw [exec_eq_run]
  exact pushWord_effect (s.reg r) (addrPush_eq_ok h)

theorem exec_push_overflow {s : State} (r : Reg) (h : s.sp ≤ s.params.stackFloor) :
    exec (.push r) s = .next (s.raised (.stack .overflow s.sp)) := by
  rw [exec_eq_run]
  exact pushWord_of_addrPush_error (s.reg r) (addrPush_eq_error h)

theorem exec_pop_effect {s : State} (d : Reg) (h : s.sp < Config.stackBase) :
    ∃ t, exec (.pop d) s = .next t ∧ LoadEffect d (s.word s.sp.toNat) (s.sp + 1) s t := by
  rw [exec_eq_run]
  exact popWord_effect d (addrPop_eq_ok h)

theorem exec_pop_underflow {s : State} (d : Reg) (h : Config.stackBase ≤ s.sp) :
    exec (.pop d) s = .next (s.raised (.stack .underflow s.sp)) := by
  rw [exec_eq_run]
  exact popWord_of_addrPop_error d (addrPop_eq_error h)

/-- Settles O32: SP against the floor decides between the store at SP - 1 and the overflow. -/
theorem pushStoresBelowSp : Obligations.PushStoresBelowSp := by
  refine ⟨fun x s y => ?word, fun s r => ⟨fun habove => ?stores, fun hfloor => ?overflow⟩⟩
  case word => exact decodeWord_of_fr_ignored (Laws.EncodingMatchesRow.push s.toFin) rfl rfl rfl rfl x y
  case stores =>
    obtain ⟨t, ht, heffect⟩ := exec_push_effect r habove
    exact ⟨t, ht, addrPush_eq_ok habove, heffect, heffect.sp ▸ toNat_sub_one_of_lt habove⟩
  case overflow => exact ⟨_, exec_push_overflow r hfloor, faultEffect_raised s (.stack .overflow s.sp)⟩

/-- Settles O33: SP against STACK_BASE decides between the load at SP and the underflow, and reset puts SP there. -/
theorem popLoadsAtSp : Obligations.PopLoadsAtSp := by
  refine ⟨fun x d y => ?word, fun s d => ⟨fun hbelow => ?loads, fun hbase => ?underflow⟩, fun p d => ?reset⟩
  case word => exact decodeWord_of_fr_ignored (Laws.EncodingMatchesRow.pop d.toFin) rfl rfl rfl rfl x y
  case loads =>
    obtain ⟨t, ht, heffect⟩ := exec_pop_effect d hbelow
    exact ⟨t, ht, heffect, heffect.sp ▸ toNat_add_one_of_lt hbelow⟩
  case underflow => exact ⟨_, exec_pop_underflow d hbase, faultEffect_raised s (.stack .underflow s.sp)⟩
  case reset => exact ⟨_, exec_pop_underflow d (BitVec.le_refl Config.stackBase), rfl⟩

end Sys2Proof.Machine


namespace Sys2Proof.Machine

/-! ## The jump through memory (R64, R190) -/

section
variable {i : Instr} {s : State} {a : Nat} {addr : Except CoreError Nat} {e : CoreError}

theorem exec_jump_effect (hshape : shapeOf s i = .jump addr) (haddr : addr = .ok a) (ha : a < Config.memWords) :
    ∃ t, exec i s = .next t ∧ JumpEffect (s.word a) s.run s t := by
  rw [exec_eq_run, hshape, haddr]
  exact ⟨_, jumpThrough_ok s ha, jumpEffect_sequence s (.mem (s.word a))⟩

theorem exec_jump_error (hshape : shapeOf s i = .jump addr) (haddr : addr = .error e) :
    exec i s = .next (s.raised e) := by
  rw [exec_eq_run, hshape, haddr]
  rfl

end

/-- Settles O36: the base + offset address either holds the target or raises the AddressError with the exact sum. -/
theorem jumpThroughMemory : Obligations.JumpThroughMemory := by
  refine ⟨fun d imm => ?word, fun s d imm => ?exec⟩
  case word =>
    simpa only [encode, putReg_toFin] using decodeWord_encode_of_selected (Laws.EncodingMatchesRow.jmp d.toFin imm)
  case exec =>
    rw [← toNat_zext16 imm (by decide)]
    refine ⟨fun h => ?jumps, fun hsum hmode => ?raises⟩
    case jumps => exact exec_jump_effect rfl (effectiveAddress_eq_ok h) (toNat_lt_memWords _)
    case raises =>
      exact ⟨_, exec_jump_error rfl (effectiveAddress_eq_error hsum hmode), faultEffect_raised s (.address _)⟩

/-! ## A cycle that completes (R215, R245, R247) -/

/-- CONTINUE changes nothing the observer port shows. -/
@[simp] theorem snapshot_continued (s : State) : s.continued.snapshot = s.snapshot := by
  simp [State.snapshot]

/-- A cycle from FETCH with budget left, whose instruction raises no error, passes through CONTINUE and is observed. -/
theorem step_and_observed_of_completed {s t : State} (hfsm : s.fsm = .fetch) (hbudget : s.steps < s.params.stepBudget)
    (ht : exec (decodeWord s.fetchWord) s.fetched = .next t) (hcompleted : t.fsm ≠ .fault) :
    step s = .next t.continued ∧ observed s = some t.continued.snapshot := by
  have hcycle : cycle s = endCycle (.next t) := by simp [cycle, hfsm, Nat.not_le.2 hbudget, ht]
  rcases endCycle_next t with ⟨hfault, -⟩ | ⟨-, hend⟩
  · exact absurd hfault hcompleted
  · simp [step, observed, hcycle, hend]

/-! ## The halt (R191) -/

/-- Writing RUN changes nothing else. -/
theorem JumpEffect.setRun {target : Word} {run' : Bool} {s t : State} (h : JumpEffect target run' s t) (b : Bool) :
    JumpEffect target b s (t.setRun b) where
  pc := h.pc
  run := rfl
  regs := h.regs
  flags := h.flags
  sp := h.sp
  memory := h.memory
  bookkeep := { h.bookkeep with }

theorem exec_hlt_effect (s : State) : ∃ t, exec .hlt s = .next t ∧ JumpEffect (s.pc + 1) false s t :=
  ⟨_, exec_eq_run .hlt s, (jumpEffect_sequence s .inc).setRun false⟩

/-- Settles O37: HLT clears RUN, so CONTINUE leads to HALTED, from where no step goes on. -/
theorem haltStopsTheRun : Obligations.HaltStopsTheRun := by
  refine ⟨fun x => ?word, exec_hlt_effect, fun s hfsm hbudget hword => ?cycle⟩
  case word => exact decodeWord_encode_or_field Laws.EncodingMatchesRow.hlt rfl (f := .hlt) rfl x (by decide)
  case cycle =>
    obtain ⟨t, ht, heffect⟩ := exec_hlt_effect s.fetched
    have hrun : t.run = false := heffect.run
    obtain ⟨-, -, hsteps, hsameFsm, -⟩ := heffect.bookkeep
    have hcompleted : t.fsm ≠ .fault := by simp [hsameFsm, hfsm]
    obtain ⟨hstep, hobserved⟩ := step_and_observed_of_completed hfsm hbudget (hword ▸ ht) hcompleted
    have hhalted : t.continued.fsm = .halted := by simp [hrun]
    refine ⟨t.continued, hstep, ?pc, ?run, ?status, hhalted, ?steps, hobserved, ?stuck⟩
    case pc => simpa using heffect.pc
    case run => simpa using hrun
    case status => simp [hrun]
    case steps => simp [hsteps]
    case stuck => exact step_ne_next_of_terminal (by rw [hhalted]; rfl)

end Sys2Proof.Machine


namespace Sys2Proof.Machine

/-! ## How a cycle from FETCH ends (R204, R215, R245, R247) -/

/-- No instruction writes STEPS: only CONTINUE does (R245). -/
theorem Shape.Next.steps {s t : State} {sh : Shape} (h : Shape.Next s sh t) : t.steps = s.steps := by
  cases h <;> rfl

/-- A shape that does not complete has raised an error and done nothing else; HLT always completes. -/
theorem Shape.Next.raised_or_fsm {s t : State} {sh : Shape} (h : Shape.Next s sh t) :
    (∃ e, sh.halts = false ∧ t = s.raised e) ∨ t.fsm = s.fsm := by
  cases h with
  | raised e hh => exact .inl ⟨e, hh, rfl⟩
  | _ => exact .inr rfl

theorem exec_steps {i : Instr} {s t : State} (h : exec i s = .next t) : t.steps = s.steps :=
  (exec_next h).steps

theorem exec_raised_or_fsm {i : Instr} {s t : State} (h : exec i s = .next t) :
    (∃ e, i ≠ .hlt ∧ t = s.raised e) ∨ t.fsm = s.fsm := by
  simpa [halts_shapeOf] using (exec_next h).raised_or_fsm

/-- `exec` gives every instruction a next state: a completed one or a fault (log entry 6). -/
theorem exec_exists_next (i : Instr) (s : State) : ∃ t, exec i s = .next t := by
  obtain ⟨t, ht, -⟩ := (shapeOf s i).run_next s
  exact ⟨t, (exec_eq_run i s).trans ht⟩

/-- The three ends of a cycle from FETCH, each with what the observer port shows of it: no budget left, an error raised
after the fetch, or an instruction completed and CONTINUE passed. -/
inductive CycleEnd (s : State) : State → Option Snapshot → Prop
  | budget : CycleEnd s s.outOfBudget none
  | raised (e : CoreError) (h : decodeWord s.fetchWord ≠ .hlt) : CycleEnd s (s.fetched.raised e) none
  | completed {v : State} (hexec : exec (decodeWord s.fetchWord) s.fetched = .next v) (hfsm : v.fsm = .fetch) :
      CycleEnd s v.continued (some v.continued.snapshot)

/-- Everything a step from FETCH can do, with the snapshot it emits. -/
theorem step_cycleEnd {s t : State} (hfsm : s.fsm = .fetch) (h : step s = .next t) : CycleEnd s t (observed s) := by
  rcases Nat.lt_or_ge s.steps s.params.stepBudget with hbudget | hbudget
  · obtain ⟨v, hv⟩ := exec_exists_next (decodeWord s.fetchWord) s.fetched
    rcases exec_raised_or_fsm hv with ⟨e, hhlt, rfl⟩ | hkept
    · have hcycle : cycle s = (.next (s.fetched.raised e), none) := by
        simp [cycle, hfsm, Nat.not_le.2 hbudget, hv, endCycle_raised]
      rw [step, hcycle] at h
      cases h
      rw [observed, hcycle]
      exact .raised e hhlt
    · have hfetch : v.fsm = .fetch := hkept.trans hfsm
      obtain ⟨hstep, hobserved⟩ := step_and_observed_of_completed hfsm hbudget hv (by simp [hfetch])
      cases hstep.symm.trans h
      rw [hobserved]
      exact .completed hv hfetch
  · have hcycle : cycle s = (.next s.outOfBudget, none) := by simp [cycle, hfsm, hbudget]
    rw [step, hcycle] at h
    cases h
    rw [observed, hcycle]
    exact .budget

/-- CONTINUE leads to FETCH or HALTED (R245). -/
theorem continued_fsm_ne_fault (s : State) : s.continued.fsm ≠ .fault := by
  cases hrun : s.run <;> simp [hrun]

theorem continued_fsm_ne_budget (s : State) : s.continued.fsm ≠ .budget := by
  cases hrun : s.run <;> simp [hrun]

section
variable {s t : State} {o : Option Snapshot}

/-- A cycle that ends in FAULT has fetched its word and raised an error. -/
theorem CycleEnd.exists_raised (h : CycleEnd s t o) (hfault : t.fsm = .fault) :
    ∃ e, t = s.fetched.raised e ∧ o = none ∧ decodeWord s.fetchWord ≠ .hlt := by
  cases h with
  | budget => cases hfault
  | raised e hhlt => exact ⟨e, rfl, rfl, hhlt⟩
  | @completed v => exact absurd hfault (continued_fsm_ne_fault v)

theorem CycleEnd.eq_none (h : CycleEnd s t o) (hended : t.fsm = .fault ∨ t.fsm = .budget) : o = none := by
  cases h with
  | budget | raised => rfl
  | @completed v => exact absurd hended (not_or.2 ⟨continued_fsm_ne_fault v, continued_fsm_ne_budget v⟩)

theorem CycleEnd.eq_some_snapshot (h : CycleEnd s t o) (hfault : t.fsm ≠ .fault) (hbudget : t.fsm ≠ .budget) :
    t.steps = s.steps + 1 ∧ o = some t.snapshot := by
  cases h with
  | budget => exact absurd rfl hbudget
  | raised => exact absurd rfl hfault
  | completed hexec => exact ⟨by rw [continued_steps, exec_steps hexec, fetched_steps], rfl⟩

end

/-! ## Precise faults (R204) -/

/-- The termination port shows the record of the error, and the machine as it stood when the error was raised. -/
theorem terminationReport_raised (s : State) (e : CoreError) :
    terminationReport (s.raised e) = some ⟨e.status.code, .fault, s.machineSnapshot, some (faultRecord e s)⟩ := rfl

/-- Settles O47: a step that ends in FAULT has fetched its word and raised an error, whose entry is the frame. -/
theorem faultsArePrecise : Obligations.FaultsArePrecise := by
  intro s t hfsm hstep hfault
  obtain ⟨e, rfl, hobserved, hhlt⟩ := (step_cycleEnd hfsm hstep).exists_raised hfault
  have heffect := faultEffect_raised s.fetched e
  exact ⟨heffect.pc, heffect.ir, heffect.regs, heffect.sp, heffect.lr, heffect.flags, heffect.memory, heffect.run,
    heffect.run.trans, heffect.steps, hobserved, hhlt, heffect.romLen, heffect.params,
    faultRecord e s.fetched, heffect.record, rfl, rfl, rfl, rfl, terminationReport_raised s.fetched e⟩

/-! ## The observer port (R215) -/

/-- The trace begins with the snapshot of the first cycle and goes on from the state that cycle leads to. -/
theorem trace_succ_of_step {s t : State} (h : step s = .next t) (k : Nat) :
    trace (k + 1) s = (observed s).toList ++ trace k t := by
  simp [trace, h]

/-- Settles O54, from the three ends of a cycle: only the completed one is neither in FAULT nor in BUDGET. -/
theorem observerSeesCompletedCycles : Obligations.ObserverSeesCompletedCycles := by
  intro s t hfsm hstep
  have hend := step_cycleEnd hfsm hstep
  exact ⟨hend.eq_none, hend.eq_some_snapshot, trace_succ_of_step hstep⟩

end Sys2Proof.Machine


namespace Sys2Proof

/-! ## The round trip of decoder and encoder (R107)

A word is its pattern, its operand fields and its ignored bits. The encoder puts the fields back where the decoder took
them, so only the ignored bits are lost. -/

/-- The per-constructor lemmas of Laws/PerInstr.lean, gathered in the order of `Instr`. -/
theorem Laws.EncodingMatchesRow.every (i : Instr) : Statement i := by
  cases i
  exacts [b _, beq _, bne _, bgt _, blt _, ld _ _, ldx _ _ _, ldd _ _ _, ldi _ _, st _ _, stx _ _ _, std _ _ _,
    reserved _, mov _ _, movi _ _, and _ _, andi _ _, and3 _ _ _, and3i _ _ _, or _ _, ori _ _, or3 _ _ _, or3i _ _ _,
    not _, add _ _, addi _ _, add3 _ _ _, add3i _ _ _, sub _ _, subi _ _, sub3 _ _ _, sub3i _ _ _, cmp _ _, cmpi _ _,
    push _, pop _, jmp _ _, hlt]

theorem decodeWord_encode (i : Instr) : decodeWord (encode i) = i :=
  decodeWord_encode_of_selected (Laws.EncodingMatchesRow.every i)

/-- The bits of the `n`-bit field whose lowest bit is bit `lo`. -/
def fieldMask (lo n : Nat) : Word := field lo (BitVec.allOnes n)

/-- A field sliced from a word and put back is the word on the field's bits. -/
theorem field_slice (lo n : Nat) (w : Word) : field lo (slice lo n w) = w &&& fieldMask lo n := by
  apply BitVec.eq_of_getLsbD_eq
  intro i hi
  simp only [fieldMask, field, slice, BitVec.getLsbD_and, BitVec.getLsbD_shiftLeft, BitVec.getLsbD_setWidth,
    BitVec.getLsbD_extractLsb', BitVec.getLsbD_allOnes]
  by_cases hlo : i < lo
  · simp [hlo]
  · rw [show lo + (i - lo) = i by omega]
    ac_rfl

theorem putReg_regField (lo : Nat) (w : Word) : putReg lo (regField lo w) = w &&& fieldMask lo 3 :=
  field_slice lo 3 w

/-- The masks of a form's pattern and operand fields make up all its bits but the ignored ones. -/
theorem encode_build {f : Form} (hf : f ≠ .reserved) {w : Word} (hw : (rowOf f).selects w = true) :
    encode (f.build (Fields.ofWord w)) = w &&& ~~~ (rowOf f).ignored := by
  rw [selects_iff] at hw
  cases f with
  | reserved => exact absurd rfl hf
  | hlt => exact hw.symm
  | _ =>
    simp only [rowOf, formTable, Form.ctorIdx, List.cons_append, List.nil_append, List.getElem_cons_succ,
      List.getElem_cons_zero] at hw
    simp only [Form.build, Fields.ofWord, encode, field_slice, putReg_regField]
    rw [← hw]
    simp only [← BitVec.and_or_distrib_left]
    rfl

theorem form_ne_reserved {i : Instr} (hi : i.valid = true) : i.form ≠ .reserved := by
  rw [Ne, ← valid_eq_false_iff, hi]
  exact Bool.noConfusion

/-- Settles O6: the two halves of the round trip. -/
theorem decodeEncodeRoundTrip : Obligations.DecodeEncodeRoundTrip := by
  refine ⟨decodeWord_encode, fun w row hrow hform hvalid => ?_⟩
  rw [form_decodeWord] at hform
  rw [eq_rowOf hrow, hform, decodeWord]
  exact encode_build (form_decodeWord w ▸ form_ne_reserved hvalid) (rowOf_formOf_selects w)

end Sys2Proof


namespace Sys2Proof.Machine

/-! ## The address operand of a shape (R64, R74) -/

/-- The address operand of a shape; PUSH and POP take theirs from SP. -/
def Shape.address : Shape → Option (Except CoreError Nat)
  | .load _ addr | .store _ addr | .jump addr => some addr
  | .result _ _ | .compare _ | .put _ _ | .push _ | .pop _ | .goto _ | .halt | .fail _ => none

/-- An address operand yields an address below MEM_WORDS. -/
theorem shapeOf_address_ok_lt {s : State} {i : Instr} {a : Nat} (h : (shapeOf s i).address = some (.ok a)) :
    a < Config.memWords := by
  cases i with
  | ld | st => exact addrIndirect_ok_lt (Option.some.inj h)
  | ldx | stx => exact addrIndexed_ok_lt (Option.some.inj h)
  | ldd | std | jmp => exact addrOffset_ok_lt (Option.some.inj h)
  | _ => cases h

/-- Only an exact sum above 0xFFFF under FAULT is an error, and two words sum to at most 0x1FFFE (R64). -/
theorem effectiveAddress_error {mode : Config.EaOverflow} {base off : Word} {e : CoreError}
    (h : effectiveAddress mode base off = .error e) :
    mode = .fault ∧ ∃ a, e = .address a ∧ 0x10000 ≤ a ∧ a ≤ 0x1FFFE := by
  have hbase := base.isLt
  have hoff := off.isLt
  rcases effectiveAddress_cases h with ⟨-, hr⟩ | ⟨-, -, hr⟩ | ⟨hsum, hmode, hr⟩
  · cases hr
  · cases hr
  · cases hr
    exact ⟨hmode, _, rfl, by omega, by omega⟩

/-- Settles O13, from the rules of the effective address. -/
theorem effectiveAddressValue : Obligations.EffectiveAddressValue := by
  refine fun base off => ⟨fun mode => effectiveAddress_of_le, fun hsum => ⟨?wrap, effectiveAddress_fault hsum⟩,
    effectiveAddress_wrap base off⟩
  case wrap =>
    rcases effectiveAddress_cases (rfl : effectiveAddress .wrap base off = _) with ⟨h, -⟩ | ⟨-, -, h⟩ | ⟨-, h, -⟩
    · exact absurd h (Nat.not_le.2 hsum)
    · exact h
    · cases h

/-- The forms that compute their address are the ones whose operand can be an error. -/
theorem shapeOf_address_error {s : State} {i : Instr} {e : CoreError}
    (h : (shapeOf s i).address = some (.error e)) :
    s.params.eaOverflow = .fault ∧
    (i.form = .ldx ∨ i.form = .ldd ∨ i.form = .stx ∨ i.form = .std ∨ i.form = .jmp) ∧
    ∃ a, e = .address a ∧ 0x10000 ≤ a ∧ a ≤ 0x1FFFE := by
  cases i with
  | ldx | stx | ldd | std | jmp =>
    obtain ⟨hmode, ha⟩ := effectiveAddress_error (Option.some.inj h)
    exact ⟨hmode, by simp [Instr.form], ha⟩
  | ld | st => cases Option.some.inj h
  | _ => cases h

/-! ## Which instruction raises which error (R200 to R207) -/

theorem eq_push_of_shapeOf {s : State} {i : Instr} {v : Word} (h : shapeOf s i = .push v) : ∃ q, i = .push q := by
  cases i with
  | push q => exact ⟨q, rfl⟩
  | _ => cases h

theorem eq_pop_of_shapeOf {s : State} {i : Instr} {d : Reg} (h : shapeOf s i = .pop d) : i = .pop d := by
  cases i with
  | pop d' => cases h; rfl
  | _ => cases h

/-- Only the reserved encoding has a meaning that is an error, and the error names its word. -/
theorem eq_reserved_of_shapeOf {s : State} {i : Instr} {e : CoreError} (h : shapeOf s i = .fail e) :
    i.valid = false ∧ e = .decode (encode i) := by
  cases i with
  | reserved low => cases h; exact ⟨rfl, rfl⟩
  | _ => cases h

/-- Why a shape faults: its address operand is an error, a bound of the stack is reached, or it is an error itself. The
controller's guard is out of reach of addresses below MEM_WORDS. -/
theorem Shape.raised_cases {sh : Shape} {s t : State} (hok : ∀ a, sh.address = some (.ok a) → a < Config.memWords)
    (hs : s.fsm ≠ .fault) (h : sh.run s = .next t) (ht : t.fsm = .fault) :
    ∃ e, t = s.raised e ∧
      (sh.address = some (.error e) ∨
       (∃ v, sh = .push v ∧ s.sp ≤ s.params.stackFloor ∧ e = .stack .overflow s.sp) ∨
       (∃ d, sh = .pop d ∧ Config.stackBase ≤ s.sp ∧ e = .stack .underflow s.sp) ∨ sh = .fail e) := by
  cases sh with
  | result | compare | put | goto | halt =>
    cases h
    exact absurd ht hs
  | load d addr =>
    cases addr with
    | error e =>
      cases h
      exact ⟨e, rfl, .inl rfl⟩
    | ok a =>
      cases (loadFrom_ok s d (hok a rfl)).symm.trans h
      exact absurd ht hs
  | store v addr =>
    cases addr with
    | error e =>
      cases h
      exact ⟨e, rfl, .inl rfl⟩
    | ok a =>
      cases (storeTo_ok s v (hok a rfl)).symm.trans h
      exact absurd ht hs
  | jump addr =>
    cases addr with
    | error e =>
      cases h
      exact ⟨e, rfl, .inl rfl⟩
    | ok a =>
      cases (jumpThrough_ok s (hok a rfl)).symm.trans h
      exact absurd ht hs
  | push v =>
    rcases pushWord_cases v s with ⟨hsp, hr⟩ | ⟨-, hr⟩ <;> cases hr.symm.trans h
    · exact ⟨_, rfl, .inr (.inl ⟨v, rfl, hsp, rfl⟩)⟩
    · exact absurd ht hs
  | pop d =>
    rcases popWord_cases d s with ⟨hsp, hr⟩ | ⟨-, hr⟩ <;> cases hr.symm.trans h
    · exact ⟨_, rfl, .inr (.inr (.inl ⟨d, rfl, hsp, rfl⟩))⟩
    · exact absurd ht hs
  | fail e =>
    cases h
    exact ⟨e, rfl, .inr (.inr (.inr rfl))⟩

/-- Everything a faulting instruction can have raised (R201, R202, R205, R207). -/
theorem exec_fault_cases {i : Instr} {s t : State} (hs : s.fsm ≠ .fault) (h : exec i s = .next t)
    (ht : t.fsm = .fault) :
    ∃ e, t = s.raised e ∧
      ((i.valid = false ∧ e = .decode (encode i)) ∨
       ((∃ q, i = .push q) ∧ s.sp ≤ s.params.stackFloor ∧ e = .stack .overflow s.sp) ∨
       ((∃ q, i = .pop q) ∧ Config.stackBase ≤ s.sp ∧ e = .stack .underflow s.sp) ∨
       (s.params.eaOverflow = .fault ∧
        (i.form = .ldx ∨ i.form = .ldd ∨ i.form = .stx ∨ i.form = .std ∨ i.form = .jmp) ∧
        ∃ a, e = .address a ∧ 0x10000 ≤ a ∧ a ≤ 0x1FFFE)) := by
  rw [exec_eq_run] at h
  obtain ⟨e, rfl, hcause⟩ := Shape.raised_cases (fun _ => shapeOf_address_ok_lt) hs h ht
  refine ⟨e, rfl, ?_⟩
  rcases hcause with haddr | ⟨v, hsh, hsp, he⟩ | ⟨d, hsh, hsp, he⟩ | hsh
  · exact .inr (.inr (.inr (shapeOf_address_error haddr)))
  · exact .inr (.inl ⟨eq_push_of_shapeOf hsh, hsp, he⟩)
  · exact .inr (.inr (.inl ⟨⟨d, eq_pop_of_shapeOf hsh⟩, hsp, he⟩))
  · exact .inl (eq_reserved_of_shapeOf hsh)

/-- Settles O48: the record of each of the errors an instruction can raise. -/
theorem eachFormRaisesItsOwnErrorOnly : Obligations.EachFormRaisesItsOwnErrorOnly := by
  intro i s t hs h ht
  obtain ⟨e, rfl, hcause⟩ := exec_fault_cases hs h ht
  refine ⟨faultRecord e s, rfl, ?_⟩
  rcases hcause with ⟨hi, rfl⟩ | ⟨hi, hsp, rfl⟩ | ⟨hi, hsp, rfl⟩ | ⟨hmode, hi, a, rfl, ha⟩
  · exact .inl ⟨rfl, hi, rfl, rfl⟩
  · exact .inr (.inl ⟨rfl, hi, hsp, rfl, rfl⟩)
  · exact .inr (.inr (.inl ⟨rfl, hi, hsp, rfl, rfl⟩))
  · exact .inr (.inr (.inr ⟨rfl, hmode, rfl, hi, a, rfl, ha⟩))

/-! ## Memory and the data transaction (R74, R77) -/

/-- The data transaction of a shape. -/
def Shape.transaction (s : State) : Shape → Option Transaction
  | .load _ addr | .jump addr => readAt addr
  | .store v addr => writeAt v addr
  | .push v => writeAt v (addrPush s)
  | .pop _ => readAt (addrPop s)
  | .result _ _ | .compare _ | .put _ _ | .goto _ | .halt | .fail _ => none

theorem dataTransaction_eq (s : State) (i : Instr) : dataTransaction s i = (shapeOf s i).transaction s := by
  cases i <;> rfl

theorem readAt_ne_write (addr : Except CoreError Nat) (a : Nat) (v : Word) : readAt addr ≠ some (.write a v) := by
  cases addr <;> simp [readAt]

theorem writeAt_eq_iff {v v' : Word} {addr : Except CoreError Nat} {a : Nat} :
    writeAt v addr = some (.write a v') ↔ addr = .ok a ∧ v = v' := by
  cases addr <;> simp [writeAt]

/-- A shape whose transaction is a write performs it. -/
theorem Shape.stored_of_transaction {sh : Shape} {s t : State} {a : Nat} {v : Word}
    (hok : ∀ a, sh.address = some (.ok a) → a < Config.memWords) (h : sh.run s = .next t)
    (hw : sh.transaction s = some (.write a v)) :
    a < Config.memWords ∧ ∃ sp', StoreEffect a v sp' s t := by
  cases sh with
  | store u addr =>
    obtain ⟨rfl, rfl⟩ := writeAt_eq_iff.1 hw
    obtain ⟨t', ht', heffect⟩ := storeTo_effect s u (hok a rfl)
    cases ht'.symm.trans h
    exact ⟨hok a rfl, _, heffect⟩
  | push u =>
    obtain ⟨haddr, rfl⟩ := writeAt_eq_iff.1 hw
    obtain ⟨t', ht', heffect⟩ := pushWord_effect u haddr
    cases ht'.symm.trans h
    exact ⟨addrPush_ok_lt haddr, _, heffect⟩
  | load | jump | pop => exact absurd hw (readAt_ne_write _ a v)
  | result | compare | put | goto | halt | fail => cases hw

/-- A shape whose transaction is no write leaves memory alone. -/
theorem Shape.Next.sameMemory {sh : Shape} {s t : State} (h : Shape.Next s sh t)
    (hw : ∀ a v, sh.transaction s ≠ some (.write a v)) : SameMemory s t := by
  cases h with
  | store v a => exact absurd rfl (hw a v)
  | push v hsp => exact absurd (writeAt_eq_iff.2 ⟨addrPush_eq_ok hsp, rfl⟩) (hw _ v)
  | _ => exact fun _ => rfl

/-- Settles O15, from the transaction of the instruction's shape. -/
theorem onlyTheDataTransactionTouchesMemory : Obligations.OnlyTheDataTransactionTouchesMemory := by
  intro i s t h
  rw [dataTransaction_eq]
  refine ⟨fun a v hw => ?write, fun hw => (exec_next h).sameMemory hw⟩
  case write =>
    rw [exec_eq_run] at h
    obtain ⟨ha, _, heffect⟩ := Shape.stored_of_transaction (fun _ => shapeOf_address_ok_lt) h hw
    exact ⟨ha, heffect.stored, heffect.memory⟩

/-! ## The next PC (R28, R29) -/

/-- The next-PC source of a shape; one that raises an error has none. -/
def Shape.pcSource (s : State) : Shape → Option PcSource
  | .goto src => some src
  | .jump (.ok a) => some (.mem (s.word a))
  | .jump (.error _) | .fail _ => none
  | .result _ _ | .compare _ | .put _ _ | .load _ _ | .store _ _ | .push _ | .pop _ | .halt => some .inc

theorem pcSourceOf_eq (s : State) (i : Instr) : pcSourceOf s i = (shapeOf s i).pcSource s := by
  cases i with
  | beq | bne | bgt | blt =>
    simp only [pcSourceOf, shapeOf, branchSource, Shape.pcSource]
    cases s.flags <;> rfl
  | jmp d imm =>
    simp only [pcSourceOf, shapeOf]
    cases addrOffset s d imm <;> rfl
  | _ => rfl

/-- A completed shape has written PC from its source. -/
theorem Shape.Next.pc {sh : Shape} {s t : State} (h : Shape.Next s sh t) (ht : t.fsm ≠ .fault) :
    ∃ src, sh.pcSource s = some src ∧ t.pc = src.next s.pc := by
  cases h with
  | raised e => exact absurd rfl ht
  | _ => exact ⟨_, rfl, rfl⟩

/-- Settles O46: the values of the sources, and the source of the instruction's shape. -/
theorem nextPcComesFromItsSource : Obligations.NextPcComesFromItsSource := by
  refine ⟨fun pc => BitVec.toNat_add pc 1, rfl, fun _ imm => toNat_zext16 imm (by decide),
    fun _ imm => toNat_zext16 imm (by decide), fun s d imm a ha => ?jmp, fun i s t _ h ht => ?every⟩
  case jmp =>
    have haddr : addrOffset s d imm = .ok a := ha
    exact ⟨.mem (s.word a), by rw [pcSourceOf, haddr], rfl⟩
  case every => exact pcSourceOf_eq s i ▸ (exec_next h).pc ht

/-- PC tells a taken branch from one not taken when the target is not PC + 1. -/
theorem ite_pc_eq_target_iff {cond : Prop} [Decidable cond] {target next : Word} (h : target ≠ next) :
    (if cond then target else next) = target ↔ cond := by
  by_cases hc : cond
  · simp [hc]
  · simp [hc, h.symm]

/-- Settles O18: the four forms test the one value of FLAGS. -/
theorem branchConditionsExclude : Obligations.BranchConditionsExclude := by
  intro s imm htarget
  obtain ⟨-, heffects⟩ := conditionalBranchesTestFlags
  obtain ⟨⟨eq, heq, eqEffect⟩, ⟨ne, hne, neEffect⟩, ⟨gt, hgt, gtEffect⟩, ⟨lt, hlt, ltEffect⟩⟩ := heffects s imm
  refine ⟨eq, ne, gt, lt, heq, hne, hgt, hlt, ?_⟩
  rw [eqEffect.pc, neEffect.pc, gtEffect.pc, ltEffect.pc]
  simp only [Ne, ite_pc_eq_target_iff htarget]
  cases s.flags <;> simp

/-! ## FLAGS (R32) -/

/-- The shape of a flag-producing form: its result, written to a register or only compared. -/
theorem shapeOf_of_flagProducing (s : State) {i : Instr} (h : flagProducing i = true) :
    (∃ d, i.writes = some d ∧ shapeOf s i = .result d (resultOf s i)) ∨
    (i.writes = none ∧ shapeOf s i = .compare (resultOf s i)) := by
  cases i with
  | cmp | cmpi => exact .inr ⟨rfl, rfl⟩
  | mov | movi | and | andi | and3 | and3i | or | ori | or3 | or3i => exact .inl ⟨_, rfl, rfl⟩
  | not | add | addi | add3 | add3i | sub | subi | sub3 | sub3i => exact .inl ⟨_, rfl, rfl⟩
  | _ => cases h

/-- A flag-producing form completes in every state, with FLAGS and its destination from the named result. -/
theorem exec_flagProducing {i : Instr} {s t : State} (h : exec i s = .next t) (hi : flagProducing i = true) :
    t.flags = flagsOf s.params.flagMode (resultOf s i) ∧ t.fsm = s.fsm ∧
    ∀ d, i.writes = some d → t.reg d = resultOf s i := by
  rcases shapeOf_of_flagProducing s hi with ⟨d, hd, hshape⟩ | ⟨hd, hshape⟩
  · obtain ⟨t', ht', heffect⟩ := exec_result_effect hshape
    cases ht'.symm.trans h
    refine ⟨heffect.flags, heffect.bookkeep.fsm, fun d' hd' => ?_⟩
    cases hd.symm.trans hd'
    exact heffect.dest
  · obtain ⟨t', ht', heffect⟩ := exec_compare_effect hshape
    cases ht'.symm.trans h
    exact ⟨heffect.flags, heffect.bookkeep.fsm, fun d' hd' => absurd (hd.symm.trans hd') (Option.some_ne_none d').symm⟩

/-- The shapes of the flag-producing forms. -/
def Shape.derivesFlags : Shape → Bool
  | .result _ _ | .compare _ => true
  | .put _ _ | .load _ _ | .store _ _ | .push _ | .pop _ | .goto _ | .jump _ | .halt | .fail _ => false

theorem derivesFlags_shapeOf (s : State) (i : Instr) : (shapeOf s i).derivesFlags = flagProducing i := by
  cases i <;> rfl

theorem Shape.Next.flags {sh : Shape} {s t : State} (h : Shape.Next s sh t) (hsh : sh.derivesFlags = false) :
    t.flags = s.flags := by
  cases h with
  | result | compare => cases hsh
  | _ => rfl

/-- No other form writes FLAGS, whether it completes or faults. -/
theorem exec_flags_of_not_flagProducing {i : Instr} {s t : State} (h : exec i s = .next t)
    (hi : flagProducing i = false) : t.flags = s.flags :=
  (exec_next h).flags ((derivesFlags_shapeOf s i).trans hi)

/-- Settles O40: the flag-producing forms complete, and the others leave FLAGS alone. -/
theorem flagsWrittenByFlagProducingFormsOnly : Obligations.FlagsWrittenByFlagProducingFormsOnly := by
  intro i s t hs h
  cases hi : flagProducing i with
  | true =>
    obtain ⟨hflags, hfsm, hdest⟩ := exec_flagProducing h hi
    have ht : t.fsm ≠ .fault := hfsm ▸ hs
    exact ⟨fun _ => hflags, fun hf => absurd hf ht, fun _ => ht, fun d _ => hdest d⟩
  | false =>
    have hflags := exec_flags_of_not_flagProducing h hi
    exact ⟨fun _ => hflags, fun _ => hflags, fun hf => absurd hf Bool.false_ne_true,
      fun _ hf => absurd hf Bool.false_ne_true⟩

/-- A state and the same state with other FLAGS agree on all but FLAGS. -/
theorem agree_setFlags (s : State) (f : Flag) : Agree (fun _ => True) False s (s.setFlags f) :=
  { Agree.refl (P := fun _ => True) (F := False) s with flags := False.elim }

/-- Settles O41: every other instruction keeps an agreement that leaves FLAGS out. -/
theorem onlyConditionalBranchesReadFlags : Obligations.OnlyConditionalBranchesReadFlags := by
  intro i s t f hi ht
  have hflags : readsFlags i = true → False := fun hr => by
    cases i with
    | beq imm | bne imm | bgt imm | blt imm => simpa using hi imm
    | _ => cases hr
  obtain ⟨t', u, ht', hu, h⟩ := exec_agree (agree_setFlags s f) (i := i) (fun _ _ => trivial) hflags
  cases ht.symm.trans ht'
  exact ⟨u, hu, { regs := fun r => h.regs r (.inl trivial), sp := h.sp, pc := h.pc, run := h.run, memory := h.word,
                  fsm := h.fsm, status := h.status, steps := h.steps }⟩

end Sys2Proof.Machine


namespace Sys2Proof.Machine

/-! ## The stack pointer (R25, R68, R187) -/

/-- The shapes of PUSH and POP. -/
def Shape.isStackOp : Shape → Bool
  | .push _ | .pop _ => true
  | .result _ _ | .compare _ | .put _ _ | .load _ _ | .store _ _ | .goto _ | .jump _ | .halt | .fail _ => false

theorem isStackOp_shapeOf (s : State) (i : Instr) : (shapeOf s i).isStackOp = isStackOp i := by
  cases i <;> rfl

theorem Shape.Next.sp {sh : Shape} {s t : State} (h : Shape.Next s sh t) (hsh : sh.isStackOp = false) :
    t.sp = s.sp := by
  cases h with
  | push | pop => cases hsh
  | _ => rfl

theorem Shape.Next.params {sh : Shape} {s t : State} (h : Shape.Next s sh t) : t.params = s.params := by
  cases h <;> rfl

theorem exec_sp {i : Instr} {s t : State} (h : exec i s = .next t) (hi : isStackOp i = false) : t.sp = s.sp :=
  (exec_next h).sp ((isStackOp_shapeOf s i).trans hi)

/-- PUSH faults at the floor, leaving SP, or stores above it and lowers SP. -/
theorem exec_push_cases {r : Reg} {s t : State} (h : exec (.push r) s = .next t) :
    (t = s.raised (.stack .overflow s.sp)) ∨
    (s.params.stackFloor < s.sp ∧ StoreEffect (s.sp - 1).toNat (s.reg r) (s.sp - 1) s t) := by
  rcases addrPush_cases s with ⟨hsp, -⟩ | ⟨hsp, -⟩
  · cases (exec_push_overflow r hsp).symm.trans h
    exact .inl rfl
  · obtain ⟨t', ht', heffect⟩ := exec_push_effect r hsp
    cases ht'.symm.trans h
    exact .inr ⟨hsp, heffect⟩

/-- POP faults at STACK_BASE, leaving SP, or loads below it and raises SP. -/
theorem exec_pop_cases {d : Reg} {s t : State} (h : exec (.pop d) s = .next t) :
    (t = s.raised (.stack .underflow s.sp)) ∨
    (s.sp < Config.stackBase ∧ LoadEffect d (s.word s.sp.toNat) (s.sp + 1) s t) := by
  rcases addrPop_cases s with ⟨hsp, -⟩ | ⟨hsp, -⟩
  · cases (exec_pop_underflow d hsp).symm.trans h
    exact .inl rfl
  · obtain ⟨t', ht', heffect⟩ := exec_pop_effect d hsp
    cases ht'.symm.trans h
    exact .inr ⟨hsp, heffect⟩

/-- Moving SP by one past a passed bound check keeps it at or above the floor (R25). -/
theorem Shape.Next.stackFloor_le {sh : Shape} {s t : State} (h : Shape.Next s sh t)
    (hs : s.params.stackFloor ≤ s.sp) : t.params.stackFloor ≤ t.sp := by
  cases h with
  | push v hsp =>
    simp only [sequence_params, setSp_params, sequence_sp, setSp_sp]
    bv_omega
  | pop d hsp =>
    simp only [sequence_params, setSp_params, setReg_params, sequence_sp, setSp_sp]
    bv_omega
  | _ => exact hs

/-- Settles O43: the two forms that move SP, their bound checks, and the floor under every shape. -/
theorem onlyPushAndPopChangeSp : Obligations.OnlyPushAndPopChangeSp := by
  intro i s t h
  refine ⟨fun hsp => ?only, fun r hi hsp => ?push, fun d hi hsp => ?pop, (exec_next h).stackFloor_le⟩
  case only => exact Bool.eq_true_of_not_eq_false fun hi => hsp (exec_sp h hi)
  case push =>
    subst hi
    rcases exec_push_cases h with rfl | ⟨hfloor, heffect⟩
    · exact absurd rfl hsp
    · have := toNat_sub_one_of_lt hfloor
      refine ⟨hfloor, ?_⟩
      rw [heffect.sp]
      bv_omega
  case pop =>
    subst hi
    rcases exec_pop_cases h with rfl | ⟨hbase, heffect⟩
    · exact absurd rfl hsp
    · exact ⟨hbase, heffect.sp ▸ toNat_add_one_of_lt hbase⟩

/-! ## The extent of the stack (R68) -/

theorem stackEmpty_iff (s : State) : s.stackEmpty = true ↔ s.sp = Config.stackBase := by
  simp [State.stackEmpty]

theorem stackFull_iff (s : State) : s.stackFull = true ↔ s.sp = s.params.stackFloor := by
  simp [State.stackFull]

theorem toNat_le_stackBase (w : Word) : w.toNat ≤ Config.stackBase.toNat := Nat.le_of_lt_succ w.isLt

/-- SP is recovered from the depth, since no word lies above STACK_BASE. -/
theorem stackDepth_eq_iff (s : State) (w : Word) :
    s.stackDepth = Config.stackBase.toNat - w.toNat ↔ s.sp = w := by
  have hsp := toNat_le_stackBase s.sp
  have hw := toNat_le_stackBase w
  rw [State.stackDepth, ← BitVec.toNat_inj]
  omega

/-- A completed PUSH deepens the stack by one word and stores below STACK_BASE. -/
theorem stackDepth_push {r : Reg} {s t : State} (h : exec (.push r) s = .next t) :
    t.word Config.stackBase.toNat = s.word Config.stackBase.toNat ∧
    (t.fsm ≠ .fault → t.stackDepth = s.stackDepth + 1) := by
  rcases exec_push_cases h with rfl | ⟨hfloor, heffect⟩
  · exact ⟨rfl, fun hf => absurd rfl hf⟩
  · have hle := toNat_le_stackBase s.sp
    have hdown := toNat_sub_one_of_lt hfloor
    have hpos : s.params.stackFloor.toNat < s.sp.toNat := hfloor
    refine ⟨heffect.memory _ ?below, fun _ => ?depth⟩
    case below => omega
    case depth =>
      rw [State.stackDepth, State.stackDepth, heffect.sp]
      omega

/-- A completed POP takes one word off the stack. -/
theorem stackDepth_pop {d : Reg} {s t : State} (h : exec (.pop d) s = .next t) (ht : t.fsm ≠ .fault) :
    t.stackDepth + 1 = s.stackDepth := by
  rcases exec_pop_cases h with rfl | ⟨hbase, heffect⟩
  · exact absurd rfl ht
  · have hup := toNat_add_one_of_lt hbase
    have hlt : s.sp.toNat < Config.stackBase.toNat := hbase
    rw [State.stackDepth, State.stackDepth, heffect.sp]
    omega

/-- Settles O35: the depth as a distance from STACK_BASE, and the two instructions that change it. -/
theorem stackExtent : Obligations.StackExtent := by
  refine ⟨fun s => ⟨rfl, stackEmpty_iff s, ?empty, fun hfloor => ⟨?bound, ?full⟩⟩, fun _ _ _ _ => stackDepth_push,
    fun _ _ _ _ => stackDepth_pop⟩
  case empty => rw [stackEmpty_iff, ← stackDepth_eq_iff, Nat.sub_self]
  case bound => exact Nat.sub_le_sub_left hfloor _
  case full => rw [stackFull_iff, stackDepth_eq_iff]

/-! ## PUSH and POP as a pair (R187) -/

theorem execAll_sp {is : List Instr} {s t : State} (h : execAll is s = .next t)
    (his : ∀ i ∈ is, isStackOp i = false) : t.sp = s.sp := by
  induction is generalizing s with
  | nil =>
    cases h
    rfl
  | cons i rest ih =>
    obtain ⟨u, hu⟩ := exec_exists_next i s
    rw [execAll, hu] at h
    rw [ih h fun j hj => his j (by simp [hj]), exec_sp hu (his i (by simp))]

/-- Settles O34: SP is carried through the instructions between, so POP reads the word PUSH wrote. -/
theorem pushThenPopRestores : Obligations.PushThenPopRestores := by
  intro s t u v r d between _ hpush ht hbetween hrun hkept hpop hv
  rcases exec_push_cases hpush with rfl | ⟨-, hstore⟩
  · exact absurd rfl ht
  rcases exec_pop_cases hpop with rfl | ⟨-, hload⟩
  · exact absurd rfl hv
  have hsp : u.sp = s.sp - 1 := (execAll_sp hrun hbetween).trans hstore.sp
  refine ⟨?sp, ?reg⟩
  case sp =>
    rw [hload.sp, hsp]
    exact sub_add_cancel s.sp 1
  case reg => rw [hload.dest, hsp, hkept, hstore.stored]

end Sys2Proof.Machine


namespace Sys2Proof

/-! ## The register ports (R23, R24, R97) -/

/-- The register fields that R97 puts on the read ports of a layout. -/
def Format.readFields : Format → Fields → List Reg
  | .fm, f => [f.f9_7, f.f6_4, f.f3_1]
  | .fa, f | .fe, f | .fr, f => [f.f10_8, f.f7_5, f.f4_2]
  | .fj, f => [f.f11_9]
  | .fb, _ | .fc, _ | .fn, _ => []

/-- A form reads registers of its layout's fields only. -/
theorem reads_build_subset (form : Form) (f : Fields) : (form.build f).reads ⊆ form.format.readFields f := by
  cases form <;> simp [Form.build, Instr.reads, Form.format, Format.readFields]

/-- The register a form writes is the one on its layout's write port. -/
theorem write_build {form : Form} {f : Fields} {r : Reg} (h : (form.build f).writes = some r) :
    (form.format = .fm ∧ form.isLoad = true ∧ f.f9_7 = r) ∨
    ((form.format = .fa ∨ form.format = .fe ∨ form.format = .fr) ∧ f.f10_8 = r) := by
  cases form with
  | ld | ldx | ldd | ldi => exact .inl ⟨rfl, rfl, Option.some.inj h⟩
  | mov | movi | not | pop | and | andi | and3 | and3i | or | ori | or3 | or3i | add | addi | add3 | add3i | sub | subi
  | sub3 | sub3i => exact .inr ⟨by simp [Form.format], Option.some.inj h⟩
  | _ => cases h

/-- Every field of the layout stands on a read port. -/
theorem readFields_on_ports (w : Word) : ∀ r ∈ (formOf w).format.readFields (Fields.ofWord w),
    r = (portsOf w).ra ∨ r = (portsOf w).rb ∨ r = (portsOf w).rc := by
  intro r hr
  unfold portsOf
  cases hformat : (formOf w).format <;> simp_all [Format.readFields]

theorem portsOf_write {w : Word} {r : Reg} (h : (decodeWord w).writes = some r) : (portsOf w).write = r := by
  unfold portsOf
  rcases write_build h with ⟨hformat, hload, hr⟩ | ⟨hformat | hformat | hformat, hr⟩
  · simp only [hformat, hload, if_true, hr]
  all_goals simp only [hformat, hr]

/-- Settles O10: the layout's fields are on the ports, and a form reads and writes registers of these fields only. -/
theorem registerPortsCarryTheOperands : Obligations.RegisterPortsCarryTheOperands := by
  intro w
  have hreads : ∀ r ∈ (decodeWord w).reads, r = (portsOf w).ra ∨ r = (portsOf w).rb ∨ r = (portsOf w).rc :=
    fun r hr => readFields_on_ports w r (reads_build_subset _ _ hr)
  refine ⟨hreads, fun r hr => ⟨portsOf_write hr, ?enabled⟩, fun hnone => ?disabled, fun s r hr => ?values, ?indices⟩
  case enabled => rw [portsOf_writeEnable, hr, Option.isSome_some]
  case disabled => rw [portsOf_writeEnable, hnone, Option.isSome_none]
  case values => exact (hreads r hr).imp (congrArg s.reg) (.imp (congrArg s.reg) (congrArg s.reg))
  case indices =>
    unfold portsOf
    cases hformat : (formOf w).format <;> simp [hformat, Fields.ofWord, regField]

/-! ## Words of the worked example (V1, R93) -/

/-- Settles O5: the decoder computed on each word. -/
theorem pinnedWordsDecode : Obligations.PinnedWordsDecode := by
  refine ⟨?_, ?_, ?_, ?_, ?_, ?_, ?_, ?_, ?_, ?_, ?_, ?_, ?_, ?_, ?_, ?_, ?_, ?_⟩ <;> decide

end Sys2Proof

namespace Sys2Proof.Machine

/-! ## The assembler (R104 to R107)

An assembly line is a mnemonic, which names one form of the table, and operands of the kinds the form takes, each
within its field. -/

/-- The mnemonics of the table are distinct, so each names its form. -/
theorem formNamed_mnemonic {f : Form} (hf : f ≠ .reserved) : formNamed (rowOf f).mnemonic = some f := by
  cases f with
  | reserved => exact absurd rfl hf
  | _ => decide

theorem mnemonic_of_formNamed {m : String} {f : Form} (h : formNamed m = some f) :
    f ≠ .reserved ∧ (rowOf f).mnemonic = m := by
  obtain ⟨r, hfind, rfl⟩ := Option.map_eq_some_iff.1 h
  have hr := List.find?_some hfind
  simp only [Bool.and_eq_true, bne_iff_ne, beq_iff_eq] at hr
  rw [← eq_rowOf (List.mem_of_find?_eq_some hfind)]
  exact hr

/-! An operand is accepted exactly when it is the number of a register or the value of an immediate. -/

theorem asmReg_eq_ok_iff {n : Nat} {r : Reg} : asmReg n = .ok r ↔ (r : Nat) = n := by
  unfold asmReg
  split
  next hn => rw [Except.ok.injEq, Fin.ext_iff, eq_comm]
  next hn => exact iff_of_false (by simp) fun h => hn (h ▸ r.isLt)

theorem asmImm_eq_ok_iff {width n : Nat} {v : BitVec width} : asmImm width n = .ok v ↔ v.toNat = n := by
  unfold asmImm
  split
  next hn =>
    rw [Except.ok.injEq, ← BitVec.toNat_inj, BitVec.toNat_ofNat, Nat.mod_eq_of_lt hn, eq_comm]
  next hn => exact iff_of_false (by simp) fun h => hn (h ▸ v.isLt)

theorem bind_eq_ok_iff {α β : Type} {x : Except AsmError α} {f : α → Except AsmError β} {b : β} :
    (x >>= f) = .ok b ↔ ∃ a, x = .ok a ∧ f a = .ok b := by
  cases x <;> simp [bind, Except.bind]

theorem pure_eq_ok_iff {α : Type} {a b : α} : (pure a : Except AsmError α) = .ok b ↔ a = b := by
  simp [pure, Except.pure]

section
variable {i : Instr} {a b c k n : Nat}

theorem asm1_eq_ok_iff {mk : Reg → Instr} : asm1 mk a = .ok i ↔ ∃ d : Reg, d = a ∧ mk d = i := by
  simp only [asm1, bind_eq_ok_iff, pure_eq_ok_iff, asmReg_eq_ok_iff]

theorem asm2_eq_ok_iff {mk : Reg → Reg → Instr} :
    asm2 mk a b = .ok i ↔ ∃ d : Reg, d = a ∧ ∃ r : Reg, r = b ∧ mk d r = i := by
  simp only [asm2, bind_eq_ok_iff, pure_eq_ok_iff, asmReg_eq_ok_iff]

theorem asm3_eq_ok_iff {mk : Reg → Reg → Reg → Instr} :
    asm3 mk a b c = .ok i ↔ ∃ d : Reg, d = a ∧ ∃ r : Reg, r = b ∧ ∃ t : Reg, t = c ∧ mk d r t = i := by
  simp only [asm3, bind_eq_ok_iff, pure_eq_ok_iff, asmReg_eq_ok_iff]

theorem asmI_eq_ok_iff {mk : BitVec n → Instr} : asmI mk k = .ok i ↔ ∃ v : BitVec n, v.toNat = k ∧ mk v = i := by
  simp only [asmI, bind_eq_ok_iff, pure_eq_ok_iff, asmImm_eq_ok_iff]

theorem asm1I_eq_ok_iff {mk : Reg → BitVec n → Instr} :
    asm1I mk a k = .ok i ↔ ∃ d : Reg, d = a ∧ ∃ v : BitVec n, v.toNat = k ∧ mk d v = i := by
  simp only [asm1I, bind_eq_ok_iff, pure_eq_ok_iff, asmReg_eq_ok_iff, asmImm_eq_ok_iff]

theorem asm2I_eq_ok_iff {mk : Reg → Reg → BitVec n → Instr} :
    asm2I mk a b k = .ok i ↔ ∃ d : Reg, d = a ∧ ∃ r : Reg, r = b ∧ ∃ v : BitVec n, v.toNat = k ∧ mk d r v = i := by
  simp only [asm2I, bind_eq_ok_iff, pure_eq_ok_iff, asmReg_eq_ok_iff, asmImm_eq_ok_iff]

end

/-- The printed operands of an instruction are assembled to it. -/
theorem assembleForm_of_disassemble {i : Instr} (hi : i.valid = true) :
    ∃ ops, disassemble i = some ⟨(rowOf i.form).mnemonic, ops⟩ ∧ assembleForm i.form ops = .ok i := by
  cases i with
  | reserved low => cases hi
  | hlt => exact ⟨_, rfl, rfl⟩
  | _ =>
    refine ⟨_, rfl, ?_⟩
    simp [Instr.form, assembleForm, asm1_eq_ok_iff, asm2_eq_ok_iff, asm3_eq_ok_iff, asmI_eq_ok_iff, asm1I_eq_ok_iff,
      asm2I_eq_ok_iff]

/-- Operands that assemble are the printed operands of the instruction they assemble to. -/
theorem disassemble_of_assembleForm {f : Form} {ops : List AsmOperand} {i : Instr} (h : assembleForm f ops = .ok i) :
    disassemble i = some ⟨(rowOf f).mnemonic, ops⟩ := by
  revert h
  unfold assembleForm
  split
  case h_38 => split <;> exact nofun
  all_goals
    simp only [asm1_eq_ok_iff, asm2_eq_ok_iff, asm3_eq_ok_iff, asmI_eq_ok_iff, asm1I_eq_ok_iff, asm2I_eq_ok_iff,
      Except.ok.injEq, forall_exists_index, and_imp]
    intros
    subst_vars
    rfl

theorem valid_of_disassemble {i : Instr} {line : AsmLine} (h : disassemble i = some line) : i.valid = true := by
  cases i with
  | reserved low => cases h
  | _ => rfl

/-- Settles O11: a mnemonic names one form, and a form's operands assemble exactly as they are printed. -/
theorem assemblerAcceptsExactlyTheSyntax : Obligations.AssemblerAcceptsExactlyTheSyntax := by
  refine ⟨fun i hi => ?accepts, fun line i h => ?only⟩
  case accepts =>
    obtain ⟨ops, hline, hok⟩ := assembleForm_of_disassemble hi
    refine ⟨_, hline, ?_⟩
    rw [assembleLine, formNamed_mnemonic (form_ne_reserved hi)]
    exact hok
  case only =>
    unfold assembleLine at h
    split at h
    · cases h
    next f hf =>
      have hline : disassemble i = some line := by
        rw [disassemble_of_assembleForm h, (mnemonic_of_formNamed hf).2]
      exact ⟨valid_of_disassemble hline, hline⟩

end Sys2Proof.Machine


namespace Sys2Proof.Machine

/-! ## Where a step is defined (R247, R248) -/

/-- Away from FETCH there is no step and nothing is observed. -/
theorem step_of_ne_fetch {s : State} (h : s.fsm ≠ .fetch) :
    step s = .fault (if s.fsm.terminal then .terminalState s.fsm else .midCycle s.fsm) ∧ observed s = none := by
  unfold step observed cycle
  cases hfsm : s.fsm with
  | fetch => exact absurd hfsm h
  | _ => exact ⟨rfl, rfl⟩

theorem ne_fetch_of_terminal {s : State} (h : s.fsm.terminal = true) : s.fsm ≠ .fetch := fun hf => by
  rw [hf] at h
  cases h

theorem fsm_of_step {s t : State} (h : step s = .next t) : s.fsm = .fetch := by
  by_contra hf
  rw [(step_of_ne_fetch hf).1] at h
  cases h

/-- FETCH without budget (R241, R246). -/
theorem step_of_budget_le {s : State} (hfsm : s.fsm = .fetch) (hbudget : s.params.stepBudget ≤ s.steps) :
    step s = .next s.outOfBudget ∧ observed s = none := by
  simp [step, observed, cycle, hfsm, hbudget]

theorem step_exists_next {s : State} (hfsm : s.fsm = .fetch) : ∃ t, step s = .next t := by
  rcases Nat.lt_or_ge s.steps s.params.stepBudget with hbudget | hbudget
  · obtain ⟨v, hv⟩ := exec_exists_next (decodeWord s.fetchWord) s.fetched
    rw [step_of_lt_budget hfsm hbudget, hv]
    rcases endCycle_next v with ⟨-, hend⟩ | ⟨-, hend⟩ <;> rw [hend]
    exacts [⟨v, rfl⟩, ⟨v.continued, rfl⟩]
  · exact ⟨_, (step_of_budget_le hfsm hbudget).1⟩

/-- Settles O51: FETCH has a step, and every other state answers its fault. -/
theorem stepIsDefinedExactlyAtFetch : Obligations.StepIsDefinedExactlyAtFetch := by
  refine ⟨fun s => ⟨fun ⟨t, ht⟩ => fsm_of_step ht, step_exists_next⟩, fun s hf => (step_of_ne_fetch hf).1,
    fun s r hr => ?_⟩
  by_cases hfsm : s.fsm = .fetch
  · obtain ⟨t, ht⟩ := step_exists_next hfsm
    cases ht.symm.trans hr
  · cases (step_of_ne_fetch hfsm).1.symm.trans hr

/-- Settles O50: the cycle's end by whether the instruction has faulted and by RUN. -/
theorem stepRunsTheDecodedInstruction : Obligations.StepRunsTheDecodedInstruction := by
  rintro s _ hfsm hbudget rfl
  obtain ⟨t, ht⟩ := exec_exists_next (decodeWord s.fetchWord) s.fetched
  have hstep : step s = (endCycle (.next t)).1 := by rw [step_of_lt_budget hfsm hbudget, ht]
  refine ⟨t, ht, fun hfault => ?fault, fun hfault hrun => ?continues, fun hfault hrun => ?halts⟩
  case fault => rw [hstep, endCycle, if_pos hfault]
  case continues => rw [hstep, endCycle, if_neg hfault, State.continued, if_pos hrun]
  case halts => rw [hstep, endCycle, if_neg hfault, State.continued, if_neg (by simp [hrun])]

/-! ## Runs (R247, R248) -/

theorem runFor_succ {s t : State} (h : step s = .next t) (k : Nat) : runFor (k + 1) s = runFor k t := by
  simp [runFor, h]

section
variable {s : State}

theorem runFor_of_ne_fetch (h : s.fsm ≠ .fetch) (k : Nat) : runFor k s = s := by
  cases k with
  | zero => rfl
  | succ k => simp [runFor, (step_of_ne_fetch h).1]

theorem trace_of_ne_fetch (h : s.fsm ≠ .fetch) (k : Nat) : trace k s = [] := by
  cases k with
  | zero => rfl
  | succ k => simp [trace, step_of_ne_fetch h]

theorem phase_of_terminal (h : s.fsm.terminal = true) (r : Word) (w : Bool) : phase ⟨s, r, w⟩ = ⟨s, r, w⟩ := by
  unfold phase
  cases hfsm : s.fsm with
  | halted | budget | fault => rfl
  | _ =>
    rw [hfsm] at h
    cases h

theorem phases_of_terminal (h : s.fsm.terminal = true) (r : Word) (w : Bool) (k : Nat) :
    phases k ⟨s, r, w⟩ = ⟨s, r, w⟩ := by
  induction k with
  | zero => rfl
  | succ k ih => rw [phases, phase_of_terminal h, ih]

end

/-- Settles O53: no step, hence no run, trace or phase goes on from a terminal state. -/
theorem terminalStatesAreFrozen : Obligations.TerminalStatesAreFrozen := by
  intro s h
  have hf := ne_fetch_of_terminal h
  obtain ⟨hstep, hobserved⟩ := step_of_ne_fetch hf
  exact ⟨by rw [hstep, if_pos h], hobserved, fun k => ⟨runFor_of_ne_fetch hf k, trace_of_ne_fetch hf k⟩,
    fun k r w => phases_of_terminal h r w k, rfl⟩

/-! ## What every step keeps -/

theorem Shape.Next.romLen {sh : Shape} {s t : State} (h : Shape.Next s sh t) : t.romLen = s.romLen := by
  cases h <;> rfl

section
variable {s t : State}

/-- No step changes the host's parameters (log entry 1). -/
theorem step_params (h : step s = .next t) : t.params = s.params := by
  rcases step_next h with rfl | ⟨v, hv, ⟨-, rfl⟩ | ⟨-, rfl⟩⟩
  · rfl
  · exact (exec_next hv).params
  · exact (continued_params v).trans (exec_next hv).params

theorem step_romLen (h : step s = .next t) : t.romLen = s.romLen := by
  rcases step_next h with rfl | ⟨v, hv, ⟨-, rfl⟩ | ⟨-, rfl⟩⟩
  · rfl
  · exact (exec_next hv).romLen
  · exact (continued_romLen v).trans (exec_next hv).romLen

theorem exists_cycleEnd (h : step s = .next t) : ∃ o, CycleEnd s t o :=
  ⟨_, step_cycleEnd (fsm_of_step h) h⟩

/-- A step that does not end for want of budget had some left. -/
theorem steps_lt_of_step (h : step s = .next t) (ht : t.fsm ≠ .budget) : s.steps < s.params.stepBudget := by
  by_contra hbudget
  cases (step_of_budget_le (fsm_of_step h) (Nat.not_lt.1 hbudget)).1.symm.trans h
  exact ht rfl

/-- A step ends the run or completes a cycle and is back at FETCH (R240, R245). -/
theorem step_terminal_or_fetch (h : step s = .next t) :
    t.fsm.terminal = true ∨
    (t.fsm = .fetch ∧ t.steps = s.steps + 1 ∧ s.steps < s.params.stepBudget ∧ t.params = s.params) := by
  obtain ⟨o, hend⟩ := exists_cycleEnd h
  cases hfsm : t.fsm with
  | halted | budget | fault => exact .inl rfl
  | fetch =>
    obtain ⟨hsteps, -⟩ := hend.eq_some_snapshot (by simp [hfsm]) (by simp [hfsm])
    exact .inr ⟨rfl, hsteps, steps_lt_of_step h (by simp [hfsm]), step_params h⟩
  | decode | execute | flagUpdate | continueOrHalt =>
    cases hend with
    | budget | raised => cases hfsm
    | @completed v => cases hrun : v.run <;> simp [hrun] at hfsm

/-- STEPS stays within the budget (R246). -/
theorem step_steps_le (h : step s = .next t) (hs : s.steps ≤ s.params.stepBudget) :
    t.steps ≤ t.params.stepBudget := by
  rw [step_params h]
  obtain ⟨o, hend⟩ := exists_cycleEnd h
  cases hend with
  | budget | raised => exact hs
  | @completed v hexec =>
    rw [continued_steps, exec_steps hexec, fetched_steps]
    exact Nat.succ_le_of_lt (steps_lt_of_step h (continued_fsm_ne_budget v))

/-- STATUS tells an ended run from a running one (R203). -/
theorem step_status_of_terminal (h : step s = .next t) (ht : t.fsm.terminal = true) : t.status ≠ .running := by
  obtain ⟨o, hend⟩ := exists_cycleEnd h
  cases hend with
  | budget => exact nofun
  | raised e => cases e <;> exact nofun
  | @completed v => cases hrun : v.run <;> simp [hrun, FsmState.terminal] at ht ⊢

end

/-! ## Program load (R231, R232) -/

/-- What boot leaves of an accepted program: the reset state with the words written from address 0. -/
theorem boot_eq_ok {p : Config.Params} {program : List Word} {s : State} (h : boot p program = .ok s) :
    program.length ≤ p.romCapacity ∧
    s = { State.resetWith p with mem := Memory.writeFrom [] 0 program, romLen := program.length } := by
  unfold boot at h
  rcases load_cases program (State.resetWith p) with ⟨-, hl⟩ | ⟨-, -, hl⟩ | ⟨-, hlen, hl⟩ <;> cases hl.symm.trans h
  exact ⟨hlen, rfl⟩

/-- A read after a load: the loaded word, or what stood there before. -/
theorem read_writeFrom (m : Memory) (a b : Nat) (ws : List Word) :
    (m.writeFrom a ws).read b = if h : a ≤ b ∧ b - a < ws.length then ws[b - a] else m.read b := by
  induction ws generalizing m a with
  | nil => simp [Memory.writeFrom]
  | cons w rest ih =>
    rw [Memory.writeFrom, ih, read_write]
    rcases Nat.lt_trichotomy b a with hlt | rfl | hgt
    · simp [Nat.not_le.2 hlt, Nat.not_le.2 (Nat.lt_succ_of_lt hlt), hlt.ne]
    · simp
    · obtain ⟨d, rfl⟩ := Nat.exists_eq_add_of_lt hgt
      simp [Nat.add_assoc, Nat.add_sub_add_left]

/-- Settles O2, as a read after the load into an empty memory. -/
theorem memoryAfterResetAndLoad : Obligations.MemoryAfterResetAndLoad := by
  intro p program s _ h a
  obtain ⟨-, rfl⟩ := boot_eq_ok h
  exact (read_writeFrom [] 0 a program).trans (by simp [Memory.read, Memory.unlisted])

/-! ## The budget and the end of every run (R216, R246, R248) -/

/-- Every run is over once the budget left and one step more are used up. -/
theorem runFor_terminal {k : Nat} {s : State} (hfsm : s.fsm = .fetch) (hk : s.params.stepBudget - s.steps < k) :
    (runFor k s).fsm.terminal = true := by
  induction k generalizing s with
  | zero => exact absurd hk (Nat.not_lt_zero _)
  | succ k ih =>
    obtain ⟨t, ht⟩ := step_exists_next hfsm
    rw [runFor_succ ht]
    rcases step_terminal_or_fetch ht with hterminal | ⟨hfetch, hsteps, hbudget, hparams⟩
    · rwa [runFor_of_ne_fetch (ne_fetch_of_terminal hterminal)]
    · refine ih hfetch ?_
      rw [hparams, hsteps]
      omega

theorem status_code_eq_zero_iff {st : Status} : st.code = 0 ↔ st = .running := by
  cases st <;> simp [Status.code]

/-- Settles O58: the bound on every run, and the STATUS of an ended one. -/
theorem everyRunEndsWithinTheBudget : Obligations.EveryRunEndsWithinTheBudget := by
  refine ⟨fun s k => runFor_terminal, fun p program s hs => ?report⟩
  case report =>
    obtain ⟨hfsm, hparams⟩ : s.fsm = .fetch ∧ s.params = p := by
      obtain ⟨-, rfl⟩ := boot_eq_ok hs
      exact ⟨rfl, rfl⟩
    have hterminal := runFor_terminal (k := p.stepBudget + 1) hfsm (hparams ▸ Nat.lt_succ_of_le (Nat.sub_le _ _))
    have hstatus := runFor_invariant (Inv := fun s => s.fsm.terminal = true → s.status ≠ .running)
      (fun _ _ ht _ => step_status_of_terminal ht) (p.stepBudget + 1) (fun ht => absurd hfsm (ne_fetch_of_terminal ht))
    exact ⟨_, if_pos hterminal, mt status_code_eq_zero_iff.1 (hstatus hterminal)⟩

/-- Settles O52: FETCH without budget, the last budgeted HLT, and STEPS within the budget as an invariant. -/
theorem budgetStopsTheRun : Obligations.BudgetStopsTheRun := by
  refine ⟨fun s => step_of_budget_le, fun s hfsm hlast hword => ?halt, fun p program s k hs => ?bound,
    fun p program s k hzero hs => ?zero⟩
  case halt =>
    obtain ⟨-, -, hcycle⟩ := haltStopsTheRun
    obtain ⟨t, ht, -, -, hstatus, -, hsteps, -⟩ := hcycle s hfsm (by omega) hword
    exact ⟨t, ht, hstatus, hsteps.trans hlast⟩
  case bound =>
    obtain ⟨-, hboot⟩ := boot_eq_ok hs
    have hstart : s.params = p ∧ s.steps ≤ s.params.stepBudget := hboot ▸ ⟨rfl, Nat.zero_le _⟩
    obtain ⟨hparams, hsteps⟩ := runFor_invariant (Inv := fun s => s.params = p ∧ s.steps ≤ s.params.stepBudget)
      (fun s t ht hs => ⟨(step_params ht).trans hs.1, step_steps_le ht hs.2⟩) k hstart
    exact hparams ▸ hsteps
  case zero =>
    obtain ⟨-, rfl⟩ := boot_eq_ok hs
    rw [runFor_succ (step_of_budget_le rfl (Nat.le_of_eq hzero)).1, runFor_of_ne_fetch (ne_fetch_of_terminal rfl)]
    exact ⟨rfl, rfl, rfl, rfl, rfl⟩

end Sys2Proof.Machine


namespace Sys2Proof.Machine

/-! ## The load interface (R231) -/

section
variable {s t : State}

theorem fetchWord_eq_zero (hmem : s.mem = []) : s.fetchWord = 0 := by
  rw [State.fetchWord, State.word, hmem]
  rfl

theorem decodeWord_zero : decodeWord 0 = .b 0 := decodeWord_encode_b 0

/-- The run of the empty program: it goes round at address 0 until the budget ends it. -/
structure SpinsAtZero (s : State) : Prop where
  pc    : s.pc = 0
  mem   : s.mem = []
  run   : s.run = true
  ended : s.fsm ≠ .fetch → s.status = .budgetExceeded

theorem SpinsAtZero.step (h : SpinsAtZero s) (ht : step s = .next t) : SpinsAtZero t := by
  have hfsm := fsm_of_step ht
  rcases Nat.lt_or_ge s.steps s.params.stepBudget with hbudget | hbudget
  · have hexec : exec (decodeWord s.fetchWord) s.fetched = .next (s.fetched.sequence (.imm12 0)) := by
      rw [fetchWord_eq_zero h.mem, decodeWord_zero]
      rfl
    obtain ⟨hstep, -⟩ := step_and_observed_of_completed hfsm hbudget hexec (by simp [hfsm])
    cases hstep.symm.trans ht
    exact { pc := continued_pc _, mem := (continued_mem _).trans h.mem, run := (continued_run _).trans h.run,
            ended := fun hf => absurd (by simp [h.run]) hf }
  · cases (step_of_budget_le hfsm hbudget).1.symm.trans ht
    exact { pc := h.pc, mem := h.mem, run := h.run, ended := fun _ => rfl }

/-- A program that fits is accepted before the first Fetch. -/
theorem load_of_le {program : List Word} (hbefore : s.beforeFirstFetch = true)
    (hlen : program.length ≤ s.params.romCapacity) :
    load program s = .ok { s with mem := s.mem.writeFrom 0 program, romLen := program.length } := by
  rcases load_cases program s with ⟨h, -⟩ | ⟨-, h, -⟩ | ⟨-, -, h⟩
  · exact absurd (hbefore.symm.trans h) (by decide)
  · exact absurd h (Nat.not_lt.2 hlen)
  · exact h

end

/-- Settles O3: the three answers of the load, and the run of the empty program as an invariant. -/
theorem loadInterface : Obligations.LoadInterface := by
  refine ⟨fun program s hbefore hlen => ?tooLong, fun program s hbefore hlen => ?loads,
    fun program s hpast => ?past, fun p => ?empty⟩
  case tooLong => rw [load, if_neg (by simp [hbefore]), if_pos hlen]
  case past => rw [load, if_pos hpast]
  case loads =>
    refine ⟨_, load_of_le hbefore hlen, fun a ha => ?word, fun a ha => ?other, rfl, fun _ => rfl, rfl, rfl, rfl, rfl,
      rfl, rfl, rfl, rfl, rfl, rfl, rfl⟩
    case word => exact (read_writeFrom s.mem 0 a program).trans (by simp [ha])
    case other => exact (read_writeFrom s.mem 0 a program).trans (by simp [Nat.not_lt.2 ha, State.word])
  case empty =>
    have hspins : SpinsAtZero (State.resetWith p) := ⟨rfl, rfl, rfl, fun hf => absurd rfl hf⟩
    have hword : (State.resetWith p).fetchWord = 0 := fetchWord_eq_zero rfl
    refine ⟨State.resetWith p, load_of_le rfl (Nat.zero_le _), hword, hword ▸ decodeWord_zero, fun k hk => ?run⟩
    have hrun := runFor_invariant (fun _ _ ht h => SpinsAtZero.step h ht) k hspins
    exact ⟨hrun.ended (ne_fetch_of_terminal (runFor_terminal rfl hk)), hrun.pc⟩

/-- Settles O4: reset is the fresh state under the machine's parameters, whose memory is empty. -/
theorem hostResetLeavesTerminalStates : Obligations.HostResetLeavesTerminalStates :=
  fun _ => ⟨rfl, rfl, rfl, rfl, fun _ => rfl⟩

/-! ## The termination port (R203, R216) -/

/-- Settles O55: the report is made exactly in a terminal state, and shows its fields. -/
theorem terminationPortReports : Obligations.TerminationPortReports := by
  refine ⟨fun s hterminal => ?report, fun s hrunning => ?none⟩
  case report =>
    refine ⟨_, if_pos hterminal, rfl, rfl, rfl, fun _ => rfl, rfl, rfl, ?_⟩
    cases s.status <;> rfl
  case none => rw [terminationReport, if_neg (by simp [hrunning])]

/-! ## Runs without the causes of an error (R200, R201, R202, R205) -/

section
variable {s t : State}

/-- A cycle that ends in FAULT has budget left, and its instruction has faulted. -/
theorem exec_of_step_fault (h : step s = .next t) (ht : t.fsm = .fault) :
    s.steps < s.params.stepBudget ∧ exec (decodeWord s.fetchWord) s.fetched = .next t := by
  have hbudget : s.steps < s.params.stepBudget := steps_lt_of_step h (by simp [ht])
  refine ⟨hbudget, ?_⟩
  rcases step_next h with rfl | ⟨v, hv, ⟨-, rfl⟩ | ⟨-, rfl⟩⟩
  · cases ht
  · exact hv
  · exact absurd ht (continued_fsm_ne_fault v)

/-- Under WRAP only the reserved encoding, PUSH and POP can fault. -/
theorem step_fsm_ne_fault (h : step s = .next t) (hwrap : s.params.eaOverflow = .wrap)
    (hword : s.steps < s.params.stepBudget →
      (decodeWord s.fetchWord).valid = true ∧ isStackOp (decodeWord s.fetchWord) = false) : t.fsm ≠ .fault := by
  intro ht
  obtain ⟨hbudget, hexec⟩ := exec_of_step_fault h ht
  obtain ⟨hvalid, hstack⟩ := hword hbudget
  have hs : s.fetched.fsm ≠ .fault := by simp [fsm_of_step h]
  obtain ⟨e, -, ⟨hinvalid, -⟩ | ⟨⟨q, hq⟩, -⟩ | ⟨⟨q, hq⟩, -⟩ | ⟨hfault, -⟩⟩ := exec_fault_cases hs hexec ht
  · exact Bool.false_ne_true (hinvalid.symm.trans hvalid)
  · simp [hq, isStackOp] at hstack
  · simp [hq, isStackOp] at hstack
  · cases hwrap.symm.trans hfault

end

/-- Settles O49, by induction on the number of cycles: the first keeps clear of FAULT and leaves the premises for the
rest. -/
theorem runWithoutErrorCausesIsFaultFree : Obligations.RunWithoutErrorCausesIsFaultFree := by
  intro k
  induction k with
  | zero =>
    intro s hs _ _ j hj
    rwa [Nat.le_zero.1 hj]
  | succ k ih =>
    intro s hs hwrap hwords j hj
    cases j with
    | zero => exact hs
    | succ j =>
      by_cases hfsm : s.fsm = .fetch
      · obtain ⟨t, ht⟩ := step_exists_next hfsm
        have hparams := step_params ht
        have htf : t.fsm ≠ .fault := step_fsm_ne_fault ht hwrap (hwords 0 (Nat.zero_lt_succ k) hfsm)
        rw [runFor_succ ht]
        refine ih t htf (hparams ▸ hwrap) (fun j' hj' => ?_) j (Nat.le_of_succ_le_succ hj)
        rw [hparams, ← runFor_succ ht]
        exact hwords (j' + 1) (Nat.succ_lt_succ hj')
      · rwa [runFor_of_ne_fetch hfsm]

/-! ## The state machine phase by phase (R240 to R245) -/

/-- Settles O56, state by state; EXECUTE ends by whether the instruction has faulted. -/
theorem phasesFollowTheStateTable : Obligations.PhasesFollowTheStateTable := by
  refine ⟨rfl, fun m => ?_⟩
  cases hfsm : m.state.fsm with
  | fetch =>
    simp only [phase, hfsm, phaseFetch]
    split
    exacts [.inr rfl, .inl rfl]
  | decode =>
    simp only [phase, hfsm, phaseDecode]
    split
    exacts [.inl rfl, .inr rfl]
  | execute =>
    obtain ⟨t, ht⟩ := exec_exists_next (decodeWord m.state.ir) m.state
    simp only [phase, hfsm, phaseExecute, ht]
    split
    next hfault => exact .inr hfault
    next => exact .inl rfl
  | flagUpdate =>
    simp only [phase, hfsm, phaseFlagUpdate]
    split <;> rfl
  | continueOrHalt =>
    simp only [phase, hfsm, continued_fsm]
    split
    exacts [.inl rfl, .inr rfl]
  | halted | budget | fault => simp only [phase, hfsm]

/-- The state with the FSM state written. -/
def State.withFsm (s : State) (f : FsmState) : State := { s with fsm := f }

theorem shapeOf_withFsm (s : State) (f : FsmState) (i : Instr) : shapeOf (s.withFsm f) i = shapeOf s i := by
  cases i <;> rfl

/-- What an outcome becomes when the instruction starts in another FSM state: a fault is the same, since it writes the
FSM state and its record does not show it; a completed state keeps the FSM state it started with. -/
def SameButFsm (s : State) (f : FsmState) (x y : Result) : Prop :=
  (∃ e, x = .next (s.raised e) ∧ y = .next (s.raised e)) ∨
  (∃ t, x = .next t ∧ t.fsm = s.fsm ∧ y = .next (t.withFsm f))

theorem Shape.run_withFsm {sh : Shape} (s : State) (f : FsmState)
    (hok : ∀ a, sh.address = some (.ok a) → a < Config.memWords) :
    SameButFsm s f (sh.run s) (sh.run (s.withFsm f)) := by
  cases sh with
  | result | compare | put | goto | halt => exact .inr ⟨_, rfl, rfl, rfl⟩
  | fail e => exact .inl ⟨e, rfl, rfl⟩
  | load d addr =>
    cases addr with
    | error e => exact .inl ⟨e, rfl, rfl⟩
    | ok a => exact .inr ⟨_, loadFrom_ok s d (hok a rfl), rfl, loadFrom_ok (s.withFsm f) d (hok a rfl)⟩
  | store v addr =>
    cases addr with
    | error e => exact .inl ⟨e, rfl, rfl⟩
    | ok a => exact .inr ⟨_, storeTo_ok s v (hok a rfl), rfl, storeTo_ok (s.withFsm f) v (hok a rfl)⟩
  | jump addr =>
    cases addr with
    | error e => exact .inl ⟨e, rfl, rfl⟩
    | ok a => exact .inr ⟨_, jumpThrough_ok s (hok a rfl), rfl, jumpThrough_ok (s.withFsm f) (hok a rfl)⟩
  | push v =>
    rcases pushWord_cases v s with ⟨hsp, h⟩ | ⟨hsp, h⟩
    · exact .inl ⟨_, h, pushWord_of_addrPush_error v (addrPush_eq_error hsp)⟩
    · exact .inr ⟨_, h, rfl, pushWord_of_addrPush v (addrPush_eq_ok hsp)⟩
  | pop d =>
    rcases popWord_cases d s with ⟨hsp, h⟩ | ⟨hsp, h⟩
    · exact .inl ⟨_, h, popWord_of_addrPop_error d (addrPop_eq_error hsp)⟩
    · exact .inr ⟨_, h, rfl, popWord_of_addrPop d (addrPop_eq_ok hsp)⟩

/-- No instruction looks at the FSM state. -/
theorem exec_withFsm (i : Instr) (s : State) (f : FsmState) : SameButFsm s f (exec i s) (exec i (s.withFsm f)) := by
  rw [exec_eq_run, exec_eq_run, shapeOf_withFsm]
  exact Shape.run_withFsm s f fun _ => shapeOf_address_ok_lt

/-! ## Five phases are one step (R247) -/

/-- EXECUTE and FLAGUPDATE together leave what `exec` leaves: FLAGUPDATE writes FLAGS back where EXECUTE held them. -/
theorem phaseFlagUpdate_of_exec {s t : State} {i : Instr} (ht : exec i s = .next t) :
    phaseFlagUpdate ⟨{ t with flags := s.flags, fsm := .flagUpdate }, resultOf s i, flagProducing i⟩ =
      t.withFsm .continueOrHalt := by
  cases hi : flagProducing i with
  | true =>
    obtain ⟨hflags, -, -⟩ := exec_flagProducing ht hi
    rw [← (exec_next ht).params] at hflags
    simp [phaseFlagUpdate, State.withFsm, State.flagged, State.setFlags, ← hflags]
  | false =>
    rw [← exec_flags_of_not_flagProducing ht hi]
    rfl

theorem continued_withFsm (s : State) (f : FsmState) : (s.withFsm f).continued = s.continued := by
  unfold State.continued
  cases hrun : s.run <;> simp [State.withFsm, hrun]

theorem phases_add (j k : Nat) (m : Micro) : phases (j + k) m = phases k (phases j m) := by
  induction j generalizing m with
  | zero => rw [Nat.zero_add, phases]
  | succ j ih => rw [Nat.succ_add, phases, phases, ih]

theorem phases_two {m m₁ m₂ : Micro} (h₁ : phase m = m₁) (h₂ : phase m₁ = m₂) : phases 2 m = m₂ := by
  rw [phases, h₁, phases, h₂, phases]

theorem phases_three {m m₁ m₂ m₃ : Micro} (h₁ : phase m = m₁) (h₂ : phase m₁ = m₂) (h₃ : phase m₂ = m₃) :
    phases 3 m = m₃ := by
  rw [phases, h₁, phases_two h₂ h₃]

theorem phases_four {m m₁ m₂ m₃ m₄ : Micro} (h₁ : phase m = m₁) (h₂ : phase m₁ = m₂) (h₃ : phase m₂ = m₃)
    (h₄ : phase m₃ = m₄) : phases 4 m = m₄ := by
  rw [phases, h₁, phases_three h₂ h₃ h₄]

section
variable {s t : State} (r : Word) (w : Bool)

/-! What each phase does to the state it meets. -/

theorem phase_fetch_of_budget_le (hfsm : s.fsm = .fetch) (hbudget : s.params.stepBudget ≤ s.steps) :
    phase ⟨s, r, w⟩ = ⟨s.outOfBudget, r, w⟩ := by
  simp only [phase, hfsm, phaseFetch, if_pos hbudget]

theorem phase_fetch_of_lt_budget (hfsm : s.fsm = .fetch) (hbudget : s.steps < s.params.stepBudget) :
    phase ⟨s, r, w⟩ = ⟨s.fetched.withFsm .decode, r, w⟩ := by
  simp only [phase, hfsm, phaseFetch, if_neg (Nat.not_le.2 hbudget)]
  rfl

theorem phase_decode_of_valid (hvalid : (decodeWord s.ir).valid = true) :
    phase ⟨s.withFsm .decode, r, w⟩ = ⟨s.withFsm .execute, r, w⟩ :=
  congrArg (Micro.mk · r w) (if_pos hvalid)

theorem phase_decode_of_invalid (hvalid : (decodeWord s.ir).valid = false) :
    phase ⟨s.withFsm .decode, r, w⟩ = ⟨s.raised (.decode s.ir), r, w⟩ :=
  congrArg (Micro.mk · r w) (if_neg (by simp [State.withFsm, hvalid]))

theorem phase_execute : phase ⟨s.withFsm .execute, r, w⟩ = phaseExecute ⟨s.withFsm .execute, r, w⟩ := rfl

theorem ir_withFsm (f : FsmState) : (s.withFsm f).ir = s.ir := rfl

theorem phase_execute_of_raised {e : CoreError}
    (h : exec (decodeWord s.ir) (s.withFsm .execute) = .next (s.raised e)) :
    phase ⟨s.withFsm .execute, r, w⟩ = ⟨s.raised e, r, w⟩ := by
  simp only [phase_execute, phaseExecute, ir_withFsm, h, raised_fsm, if_true]

/-- EXECUTE of an instruction that completes holds FLAGS back for FLAGUPDATE. -/
theorem phase_execute_of_completed
    (h : exec (decodeWord s.ir) (s.withFsm .execute) = .next (t.withFsm .execute)) :
    phase ⟨s.withFsm .execute, r, w⟩ =
      ⟨{ t with flags := s.flags, fsm := .flagUpdate }, resultOf s (decodeWord s.ir),
        flagProducing (decodeWord s.ir)⟩ := by
  have hresult : resultOf (s.withFsm .execute) (decodeWord s.ir) = resultOf s (decodeWord s.ir) :=
    resultOf_congr fun _ _ => rfl
  simp only [phase_execute, phaseExecute, ir_withFsm, h, hresult]
  exact if_neg nofun

/-! The phases from FETCH on, by how the cycle ends. -/

/-- A cycle that has ended in BUDGET or FAULT after some phases stays there for the others, and emits no snapshot. -/
theorem step_eq_phases_of_ended {v : State} {j : Nat} {r' : Word} {w' : Bool} (hfsm : s.fsm = .fetch)
    (hstep : step s = .next v) (hv : v.fsm = .fault ∨ v.fsm = .budget) (h : phases j ⟨s, r, w⟩ = ⟨v, r', w'⟩)
    (hj : j ≤ 4) :
    step s = .next (phases 5 ⟨s, r, w⟩).state ∧ observed s = phaseEmits (phases 4 ⟨s, r, w⟩) := by
  have hterminal : v.fsm.terminal = true := by rcases hv with hv | hv <;> rw [hv] <;> rfl
  obtain ⟨k, hk⟩ := Nat.exists_eq_add_of_le hj
  have h4 : phases 4 ⟨s, r, w⟩ = ⟨v, r', w'⟩ := by rw [hk, phases_add, h, phases_of_terminal hterminal]
  have h5 : phases 5 ⟨s, r, w⟩ = ⟨v, r', w'⟩ := by rw [phases_add 4 1, h4, phases_of_terminal hterminal]
  refine ⟨by rw [hstep, h5], ?_⟩
  rw [(step_cycleEnd hfsm hstep).eq_none hv, h4, phaseEmits, if_neg]
  rcases hv with hv | hv <;> simp [hv]

/-- A cycle that completes passes through CONTINUE after four phases. -/
theorem step_eq_phases_of_completed (hfsm : s.fsm = .fetch) (hbudget : s.steps < s.params.stepBudget)
    (ht : exec (decodeWord s.fetchWord) s.fetched = .next t) (hcompleted : t.fsm ≠ .fault) {r' : Word} {w' : Bool}
    (h : phases 4 ⟨s, r, w⟩ = ⟨t.withFsm .continueOrHalt, r', w'⟩) :
    step s = .next (phases 5 ⟨s, r, w⟩).state ∧ observed s = phaseEmits (phases 4 ⟨s, r, w⟩) := by
  obtain ⟨hstep, hobserved⟩ := step_and_observed_of_completed hfsm hbudget ht hcompleted
  have h5 : (phases 5 ⟨s, r, w⟩).state = t.continued := by
    rw [phases_add 4 1, h]
    exact continued_withFsm t .continueOrHalt
  refine ⟨by rw [hstep, h5], ?_⟩
  rw [hobserved, h, snapshot_continued]
  rfl

end

/-- Settles O57: FETCH by the budget, DECODE by the word, and EXECUTE by whether the instruction faults. -/
theorem fivePhasesAreOneStep : Obligations.FivePhasesAreOneStep := by
  intro s r w hfsm
  rcases Nat.lt_or_ge s.steps s.params.stepBudget with hbudget | hbudget
  case inr =>
    exact step_eq_phases_of_ended r w hfsm (step_of_budget_le hfsm hbudget).1 (.inr rfl) (j := 1)
      (phase_fetch_of_budget_le r w hfsm hbudget) (by decide)
  have hfetch := phase_fetch_of_lt_budget r w hfsm hbudget
  cases hvalid : (decodeWord s.fetched.ir).valid with
  | false =>
    have hdecode := phase_decode_of_invalid r w hvalid
    have hstep := step_reserved hfsm hbudget ((valid_decodeWord_eq_false_iff _).1 hvalid)
    exact step_eq_phases_of_ended r w hfsm hstep (.inl rfl) (phases_two hfetch hdecode) (by decide)
  | true =>
    have hdecode := phase_decode_of_valid r w hvalid
    rcases exec_withFsm (decodeWord s.fetched.ir) s.fetched .execute with ⟨e, he, hexec⟩ | ⟨t, ht, htf, hexec⟩
    · have hexecute := phase_execute_of_raised r w hexec
      have hstep : step s = .next (s.fetched.raised e) := by
        rw [step_of_lt_budget hfsm hbudget, ← fetched_ir, he, endCycle_raised]
      exact step_eq_phases_of_ended r w hfsm hstep (.inl rfl) (phases_three hfetch hdecode hexecute)
        (by decide)
    · have hexecute := phase_execute_of_completed r w hexec
      have hcompleted : t.fsm ≠ .fault := by
        rw [htf, fetched_fsm, hfsm]
        exact nofun
      have hflagUpdate := congrArg (Micro.mk · (resultOf s.fetched (decodeWord s.fetched.ir))
        (flagProducing (decodeWord s.fetched.ir))) (phaseFlagUpdate_of_exec ht)
      exact step_eq_phases_of_completed r w hfsm hbudget ht hcompleted
        (phases_four hfetch hdecode hexecute hflagUpdate)

end Sys2Proof.Machine


namespace Sys2Proof.Machine

/-! ## The invariant at reset and after a load (R8, R40, R230, R231) -/

/-- The reset state with a program in memory is sound, as long as the program fits. -/
theorem sound_loaded {p : Config.Params} (hp : p.WellFormed) {m : Memory} {n : Nat} (hm : m.wf)
    (hn : n ≤ p.romCapacity) : Sound { State.resetWith p with mem := m, romLen := n } where
  params := hp
  stack := ⟨BitVec.le_of_lt hp.1, BitVec.le_refl _⟩
  memory := hm
  lr := rfl
  rom := hn
  steps := Nat.zero_le _
  running := iff_of_true rfl rfl
  halted := iff_of_false nofun nofun
  budget := iff_of_false nofun nofun
  faulted := iff_of_false nofun nofun
  run := iff_of_false nofun nofun
  record := iff_of_false nofun nofun
  agrees := nofun

theorem wellFormed_atReset : Config.Params.atReset.WellFormed := by decide

/-- ROM_CAPACITY lies within the address space. -/
theorem romCapacity_le_memWords {p : Config.Params} (hp : p.WellFormed) : p.romCapacity ≤ Config.memWords :=
  hp.2.2.trans (toNat_lt_memWords p.stackFloor).le

/-- Settles O60: reset is the load of no words, and an accepted program fits the address space. -/
theorem soundAtResetAndAfterBoot : Obligations.SoundAtResetAndAfterBoot := by
  have hreset : ∀ p : Config.Params, p.WellFormed → Sound (State.resetWith p) := fun p hp =>
    sound_loaded hp (resetWith_mem_wf p) (Nat.zero_le _)
  refine ⟨hreset, fun p program s hp h => ?boot, hreset _ wellFormed_atReset⟩
  case boot =>
    obtain ⟨hlen, rfl⟩ := boot_eq_ok h
    refine sound_loaded hp (writeFrom_wf (resetWith_mem_wf p) 0 program ?_) hlen
    rw [Nat.zero_add]
    exact hlen.trans (romCapacity_le_memWords hp)

/-! ## What an instruction keeps of the invariant -/

section
variable {s t : State} {sh : Shape}

/-- Memory stays in canonical form (log entry 3). -/
theorem Shape.Next.mem_wf (h : Shape.Next s sh t) (hok : ∀ a, sh.address = some (.ok a) → a < Config.memWords)
    (hs : s.mem.wf) : t.mem.wf := by
  cases h with
  | store v a => exact write_wf hs (hok a rfl) v
  | push v => exact write_wf hs (toNat_lt_memWords _) v
  | _ => exact hs

/-- A shape that completes leaves STATUS and the fault record alone. -/
theorem Shape.Next.status_fault (h : Shape.Next s sh t) (ht : t.fsm ≠ .fault) :
    t.status = s.status ∧ t.fault = s.fault := by
  cases h with
  | raised => exact absurd rfl ht
  | _ => exact ⟨rfl, rfl⟩

theorem exec_mem_wf {i : Instr} (h : exec i s = .next t) (hs : s.mem.wf) : t.mem.wf :=
  (exec_next h).mem_wf (fun _ => shapeOf_address_ok_lt) hs

/-! ## The invariant (R25, R26, R35 to R40, R203, R212, R240, R246) -/

/-- At FETCH a sound machine runs and has no fault record. -/
theorem Sound.at_fetch (h : Sound s) (hfsm : s.fsm = .fetch) : s.status = .running ∧ s.run = true ∧ s.fault = none := by
  refine ⟨h.running.2 hfsm, ?run, ?fault⟩
  case run => simpa [hfsm] using h.run
  case fault => simpa [hfsm] using h.record

/-- FETCH writes IR, which only a fault record could disagree with. -/
theorem Sound.fetched (h : Sound s) (hfsm : s.fsm = .fetch) : Sound s.fetched := by
  obtain ⟨-, -, hfault⟩ := h.at_fetch hfsm
  exact { h with agrees := fun r hr => absurd (hfault.symm.trans hr) nofun }

theorem Sound.outOfBudget (h : Sound s) (hfsm : s.fsm = .fetch) : Sound s.outOfBudget := by
  obtain ⟨-, hrun, hfault⟩ := h.at_fetch hfsm
  exact { h with
    running := iff_of_false nofun nofun
    halted := iff_of_false nofun nofun
    budget := iff_of_true rfl rfl
    faulted := iff_of_false nofun nofun
    run := iff_of_false (by simp [hrun]) nofun
    record := iff_of_false nofun (by simp [hfault])
    agrees := fun r hr => absurd (hfault.symm.trans hr) nofun }

theorem Sound.raised (h : Sound s) (hrun : s.run = true) (e : CoreError) : Sound (s.raised e) :=
  { h with
    running := iff_of_false (by cases e <;> exact nofun) nofun
    halted := iff_of_false (by cases e <;> exact nofun) nofun
    budget := iff_of_false (by cases e <;> exact nofun) nofun
    faulted := iff_of_true (by cases e <;> simp [CoreError.status]) rfl
    run := iff_of_false (by simp [hrun]) nofun
    record := iff_of_true rfl rfl
    agrees := fun r hr => by
      cases hr
      exact ⟨rfl, rfl, rfl, rfl⟩ }

/-- An instruction that completes from a sound FETCH state, and CONTINUE after it. -/
theorem Sound.continued {i : Instr} (h : Sound s) (hfsm : s.fsm = .fetch) (hexec : exec i s = .next t)
    (ht : t.fsm = .fetch) (hsteps : t.continued.steps ≤ t.continued.params.stepBudget) : Sound t.continued := by
  obtain ⟨hrunning, -, hnone⟩ := h.at_fetch hfsm
  have hn := exec_next hexec
  obtain ⟨hstatus, hfault⟩ := hn.status_fault (by simp [ht])
  rw [hrunning] at hstatus
  rw [hnone] at hfault
  exact
    { params := by rw [continued_params, hn.params]; exact h.params
      stack := by
        rw [continued_params, continued_sp]
        exact ⟨hn.stackFloor_le h.stack.1, toNat_le_stackBase t.sp⟩
      memory := by rw [continued_mem]; exact exec_mem_wf hexec h.memory
      lr := by rw [continued_lr, hn.lr, h.lr]
      rom := by rw [continued_romLen, continued_params, hn.romLen, hn.params]; exact h.rom
      steps := hsteps
      running := by cases hrun : t.run <;> simp [hrun, hstatus]
      halted := by cases hrun : t.run <;> simp [hrun, hstatus]
      budget := by cases hrun : t.run <;> simp [hrun, hstatus]
      faulted := by cases hrun : t.run <;> simp [hrun, hstatus]
      run := by cases hrun : t.run <;> simp [hrun]
      record := by cases hrun : t.run <;> simp [hrun, hfault]
      agrees := by simp [hfault] }

end

/-- Settles O59, from the three ends of a cycle. -/
theorem everyStepKeepsSoundness : Obligations.EveryStepKeepsSoundness := by
  intro s t h hstep
  refine ⟨?_, step_params hstep, step_romLen hstep⟩
  have hfsm := fsm_of_step hstep
  have hfetched := h.fetched hfsm
  obtain ⟨o, hend⟩ := exists_cycleEnd hstep
  cases hend with
  | budget => exact h.outOfBudget hfsm
  | raised e => exact hfetched.raised (h.at_fetch hfsm).2.1 e
  | completed hexec hv => exact hfetched.continued hfsm hexec hv (step_steps_le hstep h.steps)

end Sys2Proof.Machine
